-- ==== Sys2Proof/Word.lean ====
section
/-! DEFINITION. The command word of the core. -/

namespace Sys2Proof

/-- A command word `W` (30_encoding.md R70): 40 bits, bit 0 the least significant (00_scope.md R9). -/
abbrev Word := BitVec 40

end Sys2Proof
end

