-- ==== Sys2Proof/Config.lean ====
section
/-! DEFINITION. What an implementation fixes: the type of the schedule configuration and the open parameters.

The six configuration registers of 10_state.md R32 stand in `State.cfg`, so a statement over all states is a statement
over all configurations. The parameters below have no body: nothing in Lean can evaluate one. -/

namespace Sys2Proof

/-- ScheduleConfig (10_state.md R32, 00_scope.md R6), read-only for the core. Each field's type is its legal range: a
value outside the range is no configuration of this hardware and cannot be built. `ScheduleConfig.ofRegisters`
reads one from raw register values and refuses an illegal one. -/
structure ScheduleConfig where
  /-- `BOOT_TEST_MIN`, minutes, 16 bits. -/
  bootTestMin : BitVec 16
  /-- `NIGHT_START_H`, 5 bits. -/
  nightStartH : Fin 24
  /-- `NIGHT_END_H`, 5 bits. -/
  nightEndH : Fin 24
  /-- `NIGHT_TX_MIN`, 6 bits. -/
  nightTxMin : Fin 61
  /-- `WAKE_H`, 5 bits. -/
  wakeH : Fin 24
  /-- `WAKE_M`, 6 bits. -/
  wakeM : Fin 60
  deriving DecidableEq, Repr

/-- One less than the PWM duty applied while the carrier is ON, so that the duty itself is not zero. -/
opaque Config.onDutyPred : Nat

/-- `ON_DUTY` (00_scope.md R7, 10_state.md R33): open, non-zero. -/
def Config.onDuty : Nat := Config.onDutyPred + 1

/-- `CARRIER_HZ` (00_scope.md R7): open, read by no rule. -/
opaque Config.carrierHz : Nat

/-- Whether the handler first fires at the end of the first 100 ms period (70_reset_and_hazards.md R305): open. -/
opaque Config.firstTickAtPeriodEnd : Bool

/-- `TICK0_OFFSET_MS` (70_reset_and_hazards.md R305): 0 or 100, open which. -/
def Config.tick0OffsetMs : Nat := if Config.firstTickAtPeriodEnd then 100 else 0

/-- The instant of tick number `n` (from 1) of a transmission, in ms after the aligned boundary
(70_reset_and_hazards.md R304). -/
def Config.tickInstantMs (n : Nat) : Nat := Config.tick0OffsetMs + 100 * (n - 1)

/-- `LOOP_PERIOD` (00_scope.md R7): the environment's, open, in ms. -/
opaque Config.loopPeriodMs : Nat

/-- `UTC_OFFSET_S` (00_scope.md R6, 10_state.md R34): the environment's, read by no rule of the core. -/
opaque Config.utcOffsetS : Int

/-- `DRIFT_S` (00_scope.md R6, 10_state.md R34): the environment's, read by no rule of the core. -/
opaque Config.driftS : Int

end Sys2Proof
end

