-- ==== Sys2Proof/Syntax.lean ====
section
/-! DEFINITION. The thirteen operations (30_encoding.md R75), their formats, and the names of the data values. -/

namespace Sys2Proof

/-- ModulationSymbol (00_scope.md R14). -/
inductive Symbol where
  | zero | one | marker
  deriving DecidableEq, Repr

/-- OperatingWindow (00_scope.md R14). -/
inductive Window where
  | bootTest | nightTransmit | nightIdle | preMidnightHold | daytimeSuspend
  deriving DecidableEq, Repr

/-- Sleep kind (30_encoding.md R82). -/
inductive SleepKind where
  | none | cp | deep
  deriving DecidableEq, Repr

/-- Carrier and indicator level (30_encoding.md R83). -/
inductive Level where
  | off | on
  deriving DecidableEq, Repr

/-- Power state (10_state.md R28). -/
inductive Power where
  | awake | sleepCp | sleepDeep
  deriving DecidableEq, Repr

/-- The names of the operand fields (30_encoding.md R71). -/
inductive Field where
  | v | sym | sec | min | hour | doy | year2 | wday | secs
  deriving DecidableEq, Repr

/-- The formats of a command word (30_encoding.md R71). -/
inductive Format where
  | n | v | s | t | hms | d
  deriving DecidableEq, Repr

/-- The operations without their operands (30_encoding.md R75). -/
inductive Op where
  | tobcd | parity | symfor | symwr | modstart | modstop | tick
  | classify | sechour | secdaily | sched | sleepcp | sleepdeep
  deriving DecidableEq, Repr

/-- An operation with its operand fields as they stand in the word, in or out of their legal ranges
(30_encoding.md R72, R74). -/
inductive Instr where
  | tobcd (v : BitVec 12)
  | parity (v : BitVec 12)
  | symfor (sec min : BitVec 6) (hour : BitVec 5) (doy : BitVec 9) (year2 : BitVec 7) (wday : BitVec 3)
  | symwr (sym : BitVec 2)
  | modstart
  | modstop
  | tick
  | classify (hour : BitVec 5) (min sec : BitVec 6)
  | sechour (hour : BitVec 5) (min sec : BitVec 6)
  | secdaily (hour : BitVec 5) (min sec : BitVec 6)
  | sched (hour : BitVec 5) (min sec : BitVec 6)
  | sleepcp (secs : BitVec 17)
  | sleepdeep (secs : BitVec 17)
  deriving DecidableEq, Repr

end Sys2Proof
end

