-- ==== Sys2Proof/WellFormed.lean ====
section
/-! DEFINITION. The legal operand ranges (30_encoding.md R74). -/

namespace Sys2Proof

/-- The range check of the fields `hour`, `min` and `sec`. -/
def timeOfDayWf (hour : BitVec 5) (min sec : BitVec 6) : Bool :=
  hour.toNat < 24 && min.toNat < 60 && sec.toNat < 60

/-- Every field of the operation lies in its legal range (30_encoding.md R74). -/
def Instr.wf : Instr → Bool
  | .tobcd v => v.toNat < 1000
  | .parity _ => true
  | .symfor sec min hour doy year2 wday =>
    timeOfDayWf hour min sec && (1 ≤ doy.toNat && doy.toNat ≤ 366) && year2.toNat < 100 && wday.toNat < 7
  | .symwr sym => sym.toNat < 3
  | .modstart => true
  | .modstop => true
  | .tick => true
  | .classify hour min sec => timeOfDayWf hour min sec
  | .sechour hour min sec => timeOfDayWf hour min sec
  | .secdaily hour min sec => timeOfDayWf hour min sec
  | .sched hour min sec => timeOfDayWf hour min sec
  | .sleepcp secs => secs.toNat ≤ 86400
  | .sleepdeep secs => 1 ≤ secs.toNat && secs.toNat ≤ 86400

end Sys2Proof
end

