-- ==== Sys2Proof/Decode.lean ====
section
/-! DEFINITION. The encodings of data and of command words (30_encoding.md), the decoder, the encoder and the text form.

Decoding has the two stages of R70 and R255. `decode` reads the operation code, the format and the must-be-zero bits,
and refuses a reserved encoding by name. The range check of the fields comes after it: `Machine.firstIllegal`. -/

namespace Sys2Proof

/-! ### Codes of the data values -/

/-- 30_encoding.md R80. -/
def Symbol.code : Symbol → BitVec 2
  | .zero => 0#2
  | .one => 1#2
  | .marker => 2#2

/-- 30_encoding.md R80: code 3 is reserved and stands for no symbol. -/
def Symbol.ofCode (c : BitVec 2) : Option Symbol :=
  if c = 0#2 then some .zero else if c = 1#2 then some .one else if c = 2#2 then some .marker else none

/-- 30_encoding.md R81. -/
def Window.code : Window → BitVec 3
  | .bootTest => 0#3
  | .nightTransmit => 1#3
  | .nightIdle => 2#3
  | .preMidnightHold => 3#3
  | .daytimeSuspend => 4#3

/-- 30_encoding.md R82. -/
def SleepKind.code : SleepKind → BitVec 2
  | .none => 0#2
  | .cp => 1#2
  | .deep => 2#2

/-- 30_encoding.md R83. -/
def Level.code : Level → BitVec 1
  | .off => 0#1
  | .on => 1#1

/-- 30_encoding.md R83. -/
def Power.code : Power → BitVec 2
  | .awake => 0#2
  | .sleepCp => 1#2
  | .sleepDeep => 2#2

/-! ### The operation map -/

/-- The operation code of each operation (30_encoding.md R75). -/
def Op.code : Op → BitVec 4
  | .tobcd => 0x1#4
  | .parity => 0x2#4
  | .symfor => 0x3#4
  | .symwr => 0x4#4
  | .modstart => 0x5#4
  | .modstop => 0x6#4
  | .tick => 0x7#4
  | .classify => 0x8#4
  | .sechour => 0x9#4
  | .secdaily => 0xA#4
  | .sched => 0xB#4
  | .sleepcp => 0xC#4
  | .sleepdeep => 0xD#4

/-- The thirteen operations in the order of their codes. -/
def Op.all : List Op :=
  [.tobcd, .parity, .symfor, .symwr, .modstart, .modstop, .tick, .classify, .sechour, .secdaily, .sched, .sleepcp,
    .sleepdeep]

/-- The operation with a given code; none for the reserved codes 0x0, 0xE, 0xF (30_encoding.md R76). -/
def Op.ofCode (c : BitVec 4) : Option Op := Op.all.find? fun o => o.code == c

/-- 30_encoding.md R75. -/
def Op.format : Op → Format
  | .tobcd | .parity => .v
  | .symfor => .t
  | .symwr => .s
  | .modstart | .modstop | .tick => .n
  | .classify | .sechour | .secdaily | .sched => .hms
  | .sleepcp | .sleepdeep => .d

/-- The bits of a word that its format fixes: the operation code and the must-be-zero bits (30_encoding.md R73). -/
def Format.mask : Format → Word
  | .n => 0xFFFFFFFFFF#40
  | .v => 0xFFFFFFF000#40
  | .s => 0xFFFFFFFFFC#40
  | .t => 0xF000000000#40
  | .hms => 0xFFFFFE0000#40
  | .d => 0xFFFFFE0000#40

/-- The value of `W & mask` that selects the operation (30_encoding.md R75). -/
def Op.matchWord (o : Op) : Word := BitVec.ofNat 40 (o.code.toNat <<< 36)

/-- The operation's name (30_encoding.md R75). -/
def Op.mnemonic : Op → String
  | .tobcd => "TOBCD"
  | .parity => "PARITY"
  | .symfor => "SYMFOR"
  | .symwr => "SYMWR"
  | .modstart => "MODSTART"
  | .modstop => "MODSTOP"
  | .tick => "TICK"
  | .classify => "CLASSIFY"
  | .sechour => "SECHOUR"
  | .secdaily => "SECDAILY"
  | .sched => "SCHED"
  | .sleepcp => "SLEEPCP"
  | .sleepdeep => "SLEEPDEEP"

/-- The operation an instruction is. -/
def Instr.op : Instr → Op
  | .tobcd _ => .tobcd
  | .parity _ => .parity
  | .symfor _ _ _ _ _ _ => .symfor
  | .symwr _ => .symwr
  | .modstart => .modstart
  | .modstop => .modstop
  | .tick => .tick
  | .classify _ _ _ => .classify
  | .sechour _ _ _ => .sechour
  | .secdaily _ _ _ => .secdaily
  | .sched _ _ _ => .sched
  | .sleepcp _ => .sleepcp
  | .sleepdeep _ => .sleepdeep

/-! ### The decoder -/

/-- Why a word is a reserved encoding: a reserved operation code (30_encoding.md R76), or a 1 in a must-be-zero bit
(R73). Both are reported as the fault `reservedEncoding`. -/
inductive DecodeError where
  | reservedOp
  | mustBeZero
  deriving DecidableEq, Repr

/-- The field of `len` bits whose lowest bit is bit `lo` (00_scope.md R9: `W[lo+len-1:lo]`). -/
def fieldBits (w : Word) (lo len : Nat) : BitVec len := w.extractLsb' lo len

/-- The operands of an operation, taken from the positions of its format (30_encoding.md R71, R72). -/
def Op.assemble (o : Op) (w : Word) : Instr :=
  match o with
  | .tobcd => .tobcd (fieldBits w 0 12)
  | .parity => .parity (fieldBits w 0 12)
  | .symfor =>
    .symfor (fieldBits w 30 6) (fieldBits w 24 6) (fieldBits w 19 5) (fieldBits w 10 9) (fieldBits w 3 7) (fieldBits w 0 3)
  | .symwr => .symwr (fieldBits w 0 2)
  | .modstart => .modstart
  | .modstop => .modstop
  | .tick => .tick
  | .classify => .classify (fieldBits w 12 5) (fieldBits w 6 6) (fieldBits w 0 6)
  | .sechour => .sechour (fieldBits w 12 5) (fieldBits w 6 6) (fieldBits w 0 6)
  | .secdaily => .secdaily (fieldBits w 12 5) (fieldBits w 6 6) (fieldBits w 0 6)
  | .sched => .sched (fieldBits w 12 5) (fieldBits w 6 6) (fieldBits w 0 6)
  | .sleepcp => .sleepcp (fieldBits w 0 17)
  | .sleepdeep => .sleepdeep (fieldBits w 0 17)

/-- Reads a command word by the operation map (30_encoding.md R70, R73, R75, R76). It reads TICK's row as well: that the
control loop may not issue it is `Machine.issue` (R77). -/
def decode (w : Word) : Except DecodeError Instr :=
  match Op.ofCode (fieldBits w 36 4) with
  | none => .error .reservedOp
  | some o => if w &&& o.format.mask = o.matchWord then .ok (o.assemble w) else .error .mustBeZero

/-- The instruction of a word given as a number of `nbits` bits, bit 0 the least significant; the bits above `nbits` are 0.
A command word is one word of 40 bits, so the number is the word. -/
def decodeTableWord (nbits w : Nat) : Option Instr :=
  if nbits ≤ 40 ∧ w < 2 ^ nbits then
    match decode (BitVec.ofNat 40 w) with
    | .ok i => some i
    | .error _ => none
  else none

/-! ### The encoder -/

/-- A word of the operation whose operand field `W[35:0]` holds a number below `2^36` (30_encoding.md R70). -/
def wordOf (o : Op) (operands : Nat) : Word := BitVec.ofNat 40 (o.code.toNat <<< 36 + operands)

/-- The operand field of format HMS (30_encoding.md R71). -/
def hmsField (hour : BitVec 5) (min sec : BitVec 6) : Nat := hour.toNat <<< 12 + min.toNat <<< 6 + sec.toNat

/-- The operand field `W[35:0]` of an operation: each field shifted to its lowest bit, where no two overlap; the must-be-zero bits
are 0 (30_encoding.md R71). -/
def operandField : Instr → Nat
  | .tobcd v => v.toNat
  | .parity v => v.toNat
  | .symfor sec min hour doy year2 wday =>
    sec.toNat <<< 30 + min.toNat <<< 24 + hour.toNat <<< 19 + doy.toNat <<< 10 + year2.toNat <<< 3 + wday.toNat
  | .symwr sym => sym.toNat
  | .modstart => 0
  | .modstop => 0
  | .tick => 0
  | .classify hour min sec => hmsField hour min sec
  | .sechour hour min sec => hmsField hour min sec
  | .secdaily hour min sec => hmsField hour min sec
  | .sched hour min sec => hmsField hour min sec
  | .sleepcp secs => secs.toNat
  | .sleepdeep secs => secs.toNat

/-- The command word of an operation (30_encoding.md R70, R71). -/
def encode (i : Instr) : Word := wordOf i.op (operandField i)

/-! ### Raw configuration registers -/

/-- The configuration held by raw register values of the widths of 10_state.md R32; a value outside its legal range
is no configuration and is refused. -/
def ScheduleConfig.ofRegisters (bootTestMin : BitVec 16) (nightStartH nightEndH : BitVec 5) (nightTxMin : BitVec 6)
    (wakeH : BitVec 5) (wakeM : BitVec 6) : Option ScheduleConfig :=
  if h : nightStartH.toNat < 24 ∧ nightEndH.toNat < 24 ∧ nightTxMin.toNat < 61 ∧ wakeH.toNat < 24 ∧ wakeM.toNat < 60 then
    some
      { bootTestMin := bootTestMin
        nightStartH := ⟨nightStartH.toNat, h.1⟩
        nightEndH := ⟨nightEndH.toNat, h.2.1⟩
        nightTxMin := ⟨nightTxMin.toNat, h.2.2.1⟩
        wakeH := ⟨wakeH.toNat, h.2.2.2.1⟩
        wakeM := ⟨wakeM.toNat, h.2.2.2.2⟩ }
  else none

/-! ### The text form -/

/-- 30_encoding.md R96: symbols are written by name; the reserved code has none and is written as its number. -/
def symbolText (c : BitVec 2) : String :=
  match Symbol.ofCode c with
  | some .zero => "ZERO"
  | some .one => "ONE"
  | some .marker => "MARKER"
  | none => "3"

/-- The operands in the order of the format, as text (30_encoding.md R96). -/
def Instr.operandTexts : Instr → List String
  | .tobcd v => [Nat.repr v.toNat]
  | .parity v => [Nat.repr v.toNat]
  | .symfor sec min hour doy year2 wday =>
    [Nat.repr sec.toNat, Nat.repr min.toNat, Nat.repr hour.toNat, Nat.repr doy.toNat, Nat.repr year2.toNat,
      Nat.repr wday.toNat]
  | .symwr sym => [symbolText sym]
  | .modstart => []
  | .modstop => []
  | .tick => []
  | .classify hour min sec => [Nat.repr hour.toNat, Nat.repr min.toNat, Nat.repr sec.toNat]
  | .sechour hour min sec => [Nat.repr hour.toNat, Nat.repr min.toNat, Nat.repr sec.toNat]
  | .secdaily hour min sec => [Nat.repr hour.toNat, Nat.repr min.toNat, Nat.repr sec.toNat]
  | .sched hour min sec => [Nat.repr hour.toNat, Nat.repr min.toNat, Nat.repr sec.toNat]
  | .sleepcp secs => [Nat.repr secs.toNat]
  | .sleepdeep secs => [Nat.repr secs.toNat]

/-- An operation as text: its mnemonic and its operands, decimal, separated by spaces (30_encoding.md R96). -/
def Instr.text (i : Instr) : String := String.intercalate " " (i.op.mnemonic :: i.operandTexts)

end Sys2Proof
end

