-- ==== Sys2Proof/Machine/State.lean ====
section
/-! DEFINITION. The state of the core, its environment's inputs and outputs, the reasons a step stops, and the state
after power-on reset (10_state.md). -/

namespace Sys2Proof.Machine

/-- The input ports an operation reads at its moment (10_state.md R27). `U` is `State.uptime`; `wake_cause` is the visible
bit of `State.resetCause`. -/
structure Ports where
  /-- `USEC`, the microsecond component of the system clock, a port of 20 bits that carries 0..999999. -/
  usec : Fin 1000000
  /-- `pwm_attach_ok`. -/
  pwmAttachOk : Bool
  /-- `time_trusted`. -/
  timeTrusted : Bool
  deriving DecidableEq, Repr

/-- What ends a halt (60_exceptions.md R250, R251). -/
inductive WakeSource where
  | timer | external
  deriving DecidableEq, Repr

/-- The kinds of reset (70_reset_and_hazards.md R280). -/
inductive ResetCause where
  | powerOn | manual | restart | deepWake
  deriving DecidableEq, Repr

/-- One thing that happens to the core (00_scope.md R13): the control loop presents a command word, the tick timer fires,
a wake event comes, or the device is powered on or reset by hand. The restart after the fatal error and the reset that ends a
deep suspension are the core's own and are no event. -/
inductive Event where
  | command (w : Word)
  | tick
  | wake (src : WakeSource)
  | powerOn
  | manualReset
  deriving DecidableEq, Repr

/-- What the environment does next: the event, the ports at its moment, and the whole seconds by which `U` has advanced since
the event before it (10_state.md R27: `U` does not decrease). -/
structure Input where
  elapsed : Nat
  ports : Ports
  event : Event
  deriving DecidableEq, Repr

/-- The result of an operation (30_encoding.md R84). -/
inductive Result where
  | bcd (v : BitVec 12)
  | parity (p : BitVec 1)
  | symbol (x : Symbol)
  | window (w : Window)
  | seconds (n : BitVec 17)
  | sched (w : Window) (k : SleepKind) (n : BitVec 17)
  deriving DecidableEq, Repr

/-- The state. The first seven fields and the configuration are the whole state of the core (10_state.md R20); the others
hold the environment values it reads and sets (10_state.md R27, R29), and `schedule` and `cycle` are the model's own. -/
structure State where
  /-- `SYM`, the symbol cell; `none` is the spec's unwritten (10_state.md R21). -/
  sym : Option Symbol
  /-- `SUB`, the stored subslot counter (10_state.md R22). -/
  sub : BitVec 4
  /-- `RUN` (10_state.md R23). -/
  run : Bool
  /-- `CARRIER` (10_state.md R24). -/
  carrier : Level
  /-- `LED` (10_state.md R25). -/
  led : Level
  /-- `WAKE` (10_state.md R26). -/
  wake : Bool
  /-- `PWR` (10_state.md R28). -/
  pwr : Power
  /-- The configuration registers (10_state.md R32). -/
  cfg : ScheduleConfig
  /-- `U`, whole seconds since the last reset (10_state.md R27, 60_exceptions.md R264). -/
  uptime : BitVec 32
  /-- The other input ports, as the operation under way reads them. -/
  ports : Ports
  /-- The wake timer: the seconds it was armed with, if it is armed (60_exceptions.md R250, R266). -/
  wakeTimer : Option (BitVec 17)
  /-- The device's reset-cause register, seen by the core only as `wake_cause` (10_state.md R35). -/
  resetCause : ResetCause
  /-- The result of the operation just executed, if it has one (10_state.md R29 c). -/
  result : Option Result
  /-- The model's own: what the agents and the ports will do, oldest first. -/
  schedule : List Input
  /-- The model's own: what they do once `schedule` is used up, over and over, so that a run can go on for ever
  (60_exceptions.md R241). -/
  cycle : List Input
  deriving DecidableEq, Repr

/-- The model faults (60_exceptions.md R245, codes 2 to 6): a contract or a precondition was broken, the state is unchanged
and the run has gone wrong (00_scope.md R12). Every one is safe: the real device computes something that the model gives no
meaning (91_not_in_source.md N17). `PwmAttachFail` (code 1) is no fault but a restart (R240). -/
inductive Fault where
  /-- SYMFOR, CLASSIFY, SECHOUR, SECDAILY, SCHED with `time_trusted` = 0 (60_exceptions.md R242). Safe. -/
  | timeUntrusted (op : Op)
  /-- Decoding a command word: a reserved operation code, a must-be-zero bit, TICK from the control loop
  (30_encoding.md R73, R76, R77). Safe. -/
  | reservedEncoding (w : Word)
  /-- An operation whose field is outside its legal range (30_encoding.md R74). Safe. -/
  | operandRange (field : Field) (value : Nat)
  /-- TICK with an unwritten symbol cell (60_exceptions.md R246). Safe. -/
  | symUnwritten
  /-- SLEEPCP, SLEEPDEEP with `RUN` = 1 (44_sleep_interface.md R229). Safe. -/
  | sleepWhileRunning
  deriving DecidableEq, Repr

/-- Why a step has no meaning. -/
inductive Refusal where
  /-- Raised by `exec` for an instruction that has no meaning in the model: none is left. Safe. -/
  | notModelled (mnemonic : String)
  /-- An operation of the control loop presented while `PWR` is not AWAKE, which never happens: nothing is issued while the
  device sleeps (10_state.md R28, 30_encoding.md R78). Safe. -/
  | notAwake
  deriving DecidableEq, Repr

/-- What an operation answers. -/
abbrev Out := Host.Outcome State Fault Refusal

/-- The state right after a power-on reset (10_state.md R39, 70_reset_and_hazards.md R283), with no schedule. The values the
spec does not give are those of the assumption log, entries 2 and 3. -/
def State.reset : State where
  sym := none
  sub := 0#4
  run := false
  carrier := .off
  led := .off
  wake := false
  pwr := .awake
  cfg := { bootTestMin := 0#16, nightStartH := 0, nightEndH := 0, nightTxMin := 0, wakeH := 0, wakeM := 0 }
  uptime := 0#32
  ports := { usec := 0, pwmAttachOk := false, timeTrusted := false }
  wakeTimer := none
  resetCause := .powerOn
  result := none
  schedule := []
  cycle := []

end Sys2Proof.Machine
end

