-- ==== Sys2Proof/Machine/Ops.lean ====
section
/-! DEFINITION. The named operations over the state: the symbol cell, the output latch, reset and restart, starting and
stopping the modulator, entering and leaving sleep, and taking one entry of the schedule. -/

namespace Sys2Proof.Machine

/-! ### Results and outputs -/

/-- The state at the end of an operation, with its result (10_state.md R29 c). -/
def State.withResult (s : State) (r : Option Result) : State := { s with result := r }

/-- The width in bits of a result (30_encoding.md R84). -/
def resultWidth : Result → Nat
  | .bcd _ => 12
  | .parity _ => 1
  | .symbol _ => 2
  | .window _ => 3
  | .seconds _ => 17
  | .sched _ _ _ => 22

/-- SCHED's result packed as `win ++ kind ++ secs` (30_encoding.md R84). -/
def packSched (w : Window) (k : SleepKind) (n : BitVec 17) : BitVec 22 := w.code ++ k.code ++ n

/-- The value of a result as an unsigned number of `resultWidth` bits (30_encoding.md R80, R81, R84). -/
def resultValue : Result → Nat
  | .bcd v => v.toNat
  | .parity p => p.toNat
  | .symbol x => x.code.toNat
  | .window w => w.code.toNat
  | .seconds n => n.toNat
  | .sched w k n => (packSched w k n).toNat

/-- The PWM duty driven on the output (10_state.md R24, R29 a): `ON_DUTY` while the carrier is ON, zero while it is OFF. -/
def State.pwmDuty (s : State) : Nat :=
  match s.carrier with
  | .on => Config.onDuty
  | .off => 0

/-- The code of a fault (60_exceptions.md R245). -/
def faultCode : Fault → Nat
  | .timeUntrusted _ => 2
  | .reservedEncoding _ => 3
  | .operandRange _ _ => 4
  | .symUnwritten => 5
  | .sleepWhileRunning => 6

/-! ### The symbol cell and the output latch -/

/-- One atomic write of the symbol cell; the old value is lost (20_memory.md R58, R59). -/
def State.writeSym (s : State) (x : Symbol) : State := { s with sym := some x }

/-- Latches the carrier, and the indicator with it (10_state.md R24, R25). -/
def State.latch (s : State) (l : Level) : State := { s with carrier := l, led := l }

/-- Writes the stored subslot counter. -/
def State.setSub (s : State) (k : BitVec 4) : State := { s with sub := k }

/-- Attaches or detaches the handler and the PWM peripheral (10_state.md R23). -/
def State.setRun (s : State) (b : Bool) : State := { s with run := b }

/-! ### Reset -/

/-- The port `wake_cause` after a reset (70_reset_and_hazards.md R280): 1 only for the wake from a deep suspension. -/
def wakeCause : ResetCause → Bool
  | .deepWake => true
  | .powerOn | .manual | .restart => false

/-- A reset of any kind (10_state.md R39, 70_reset_and_hazards.md R280 to R286): every element at its reset value, `WAKE`
latched from `wake_cause`, the configuration kept, `U` restarted, the clock not trusted until it is synchronised. -/
def State.resetBy (s : State) (c : ResetCause) : State :=
  { State.reset with
    wake := wakeCause c
    cfg := s.cfg
    ports := { s.ports with timeTrusted := false }
    resetCause := c
    schedule := s.schedule
    cycle := s.cycle }

/-! ### Starting and stopping the modulator -/

/-- The fatal error `PwmAttachFail` arises (60_exceptions.md R240): the modulator is stopped and the PWM does not attach. -/
def State.attachFails (s : State) : Bool := !s.run && !s.ports.pwmAttachOk

/-- The alignment wait ends at a second boundary, where `USEC` = 0 (42_carrier_modulator.md R154). -/
def State.aligned (s : State) : State := { s with ports := { s.ports with usec := 0 } }

/-- MODSTART's action (42_carrier_modulator.md R153): nothing if running; else align, then attach or restart. -/
def State.startModulator (s : State) : State :=
  if s.run then s
  else if s.attachFails then s.aligned.resetBy .restart
  else (s.aligned.setSub 0#4).setRun true

/-- MODSTOP's action (42_carrier_modulator.md R155): nothing if stopped; else detach and force the idle level. -/
def State.stopModulator (s : State) : State :=
  if s.run then (s.setRun false).latch .off else s

/-! ### Sleep -/

/-- Arms the wake timer and halts (44_sleep_interface.md R221, R225). -/
def State.enterSleep (s : State) (p : Power) (secs : BitVec 17) : State := { s with pwr := p, wakeTimer := some secs }

/-- SLEEPCP's action on a stopped modulator (44_sleep_interface.md R221): a no-op below one second. -/
def State.sleepCp (s : State) (secs : BitVec 17) : State :=
  if secs.toNat < 1 then s else s.enterSleep .sleepCp secs

/-- SLEEPDEEP's action on a stopped modulator (44_sleep_interface.md R225). -/
def State.sleepDeep (s : State) (secs : BitVec 17) : State := s.enterSleep .sleepDeep secs

/-- The end of a clock-preserving sleep (44_sleep_interface.md R221, R222): all other state is kept. -/
def State.leaveSleepCp (s : State) : State := { s with pwr := .awake, wakeTimer := none, result := none }

/-- A wake event (44_sleep_interface.md R222, R226; 60_exceptions.md R250, R251). It ends a clock-preserving sleep from
either source and a deep suspension from the timer only; with no halt to end it does nothing. -/
def State.wakeBy (s : State) (src : WakeSource) : State :=
  match s.pwr, src with
  | .awake, _ => s
  | .sleepCp, _ => s.leaveSleepCp
  | .sleepDeep, .timer => s.resetBy .deepWake
  | .sleepDeep, .external => s

/-! ### The schedule -/

/-- What the environment does next, and the schedule that is left after it. A schedule that is used up starts over with the
cycle. -/
def State.nextInput (s : State) : Option (Input × List Input) :=
  match s.schedule, s.cycle with
  | inp :: rest, _ => some (inp, rest)
  | [], inp :: rest => some (inp, rest)
  | [], [] => none

/-- `U` some seconds later. It does not decrease (10_state.md R27, 92_eei_decisions.md D34): it stays at the largest value of
its 32 bits, where no rule handles a wrap (60_exceptions.md R264). -/
def advanceUptime (u : BitVec 32) (seconds : Nat) : BitVec 32 := BitVec.ofNat 32 (min (u.toNat + seconds) (2 ^ 32 - 1))

/-- The state in which an event finds the core: uptime has advanced, the ports show the values of that moment and `rest` is
still to come. -/
def State.sample (s : State) (inp : Input) (rest : List Input) : State :=
  { s with uptime := advanceUptime s.uptime inp.elapsed, ports := inp.ports, schedule := rest }

/-- The event by which a word comes to be run: a command of the control loop, but for TICK's word, whose only issuer is the
tick timer (30_encoding.md R77). -/
def eventOfWord (w : Word) : Event := if w = encode .tick then .tick else .command w

/-- A word presented to the core at once, the time trusted and the PWM attaching (95_test_vectors.md, conventions). -/
def presentWord (w : Word) : Input :=
  { elapsed := 0, ports := { usec := 0, pwmAttachOk := true, timeTrusted := true }, event := eventOfWord w }

end Sys2Proof.Machine
end

