-- ==== Sys2Proof/Machine/Operands.lean ====
section
/-! DEFINITION. What stands before the effect of an operation: the device is awake, every field is in range, the time is
trusted; checked in the order of 60_exceptions.md R255. -/

namespace Sys2Proof.Machine

/-- A field of an operation with its value and its legal range, both ends included (30_encoding.md R74). -/
structure Operand where
  field : Field
  value : Nat
  lo : Nat
  hi : Nat
  deriving DecidableEq, Repr

/-- The value lies in the legal range. -/
def operandLegal (o : Operand) : Bool := o.lo ≤ o.value && o.value ≤ o.hi

/-- The fields of format HMS from the high bits to the low. -/
def hmsOperands (hour : BitVec 5) (min sec : BitVec 6) : List Operand :=
  [⟨.hour, hour.toNat, 0, 23⟩, ⟨.min, min.toNat, 0, 59⟩, ⟨.sec, sec.toNat, 0, 59⟩]

/-- The fields of an operation in the order of its format from the high bits to the low, with their ranges
(30_encoding.md R71, R74). -/
def operandsOf : Instr → List Operand
  | .tobcd v => [⟨.v, v.toNat, 0, 999⟩]
  | .parity v => [⟨.v, v.toNat, 0, 4095⟩]
  | .symfor sec min hour doy year2 wday =>
    [⟨.sec, sec.toNat, 0, 59⟩, ⟨.min, min.toNat, 0, 59⟩, ⟨.hour, hour.toNat, 0, 23⟩, ⟨.doy, doy.toNat, 1, 366⟩,
      ⟨.year2, year2.toNat, 0, 99⟩, ⟨.wday, wday.toNat, 0, 6⟩]
  | .symwr sym => [⟨.sym, sym.toNat, 0, 2⟩]
  | .modstart => []
  | .modstop => []
  | .tick => []
  | .classify hour min sec => hmsOperands hour min sec
  | .sechour hour min sec => hmsOperands hour min sec
  | .secdaily hour min sec => hmsOperands hour min sec
  | .sched hour min sec => hmsOperands hour min sec
  | .sleepcp secs => [⟨.secs, secs.toNat, 0, 86400⟩]
  | .sleepdeep secs => [⟨.secs, secs.toNat, 1, 86400⟩]

/-- The first field outside its legal range, if there is one (60_exceptions.md R255). -/
def firstIllegal (i : Instr) : Option Operand := (operandsOf i).find? fun o => !operandLegal o

/-- An operation of the control loop: enabled while the device is awake (30_encoding.md R78), then its range check (R74),
then `body`. -/
def controlOp (i : Instr) (s : State) (body : Out) : Out :=
  if s.pwr = .awake then
    match firstIllegal i with
    | some o => .fault (.operandRange o.field o.value)
    | none => body
  else .refused .notAwake

/-- An operation with a wall-clock operand: `time_trusted` = 1 is its precondition (60_exceptions.md R242). -/
def timedOp (i : Instr) (s : State) (body : Out) : Out :=
  controlOp i s (if s.ports.timeTrusted then body else .fault (.timeUntrusted i.op))

/-- A sleep request: the modulator must be stopped (44_sleep_interface.md R229). -/
def sleepOp (i : Instr) (s : State) (body : Out) : Out :=
  controlOp i s (if s.run then .fault .sleepWhileRunning else body)

end Sys2Proof.Machine
end

