-- ==== Sys2Proof/Machine/Flags.lean ====
section
/-! DEFINITION. The parity function. The core has no flags and no condition codes (10_state.md R31): the one bit it computes
over a value is a result. -/

namespace Sys2Proof.Machine

/-- The parity of bits 0 to 7 (40_bcd_parity.md R105); the bits above are ignored (R106). -/
def parityBit (v : BitVec 12) : Bool :=
  (((((((v.getLsbD 0 ^^ v.getLsbD 1) ^^ v.getLsbD 2) ^^ v.getLsbD 3) ^^ v.getLsbD 4) ^^ v.getLsbD 5) ^^ v.getLsbD 6) ^^
    v.getLsbD 7)

end Sys2Proof.Machine
end

