-- ==== Sys2Proof/Machine/Codec.lean ====
section
/-! DEFINITION. The BCD/Parity Codec: TOBCD and PARITY (40_bcd_parity.md). -/

namespace Sys2Proof.Machine

/-- The three decimal digits, hundreds in bits 11:8, tens in 7:4, units in 3:0 (40_bcd_parity.md R100, 20_memory.md R54).
Its meaning is the spec's for values up to 999 only (R101). -/
def toBcd (v : Nat) : BitVec 12 := BitVec.ofNat 4 (v / 100) ++ BitVec.ofNat 4 (v / 10 % 10) ++ BitVec.ofNat 4 (v % 10)

/-- TOBCD (40_bcd_parity.md R100). -/
def execTobcd (v : BitVec 12) (s : State) : Out :=
  controlOp (.tobcd v) s (.next (s.withResult (some (.bcd (toBcd v.toNat)))))

/-- PARITY (40_bcd_parity.md R105). -/
def execParity (v : BitVec 12) (s : State) : Out :=
  controlOp (.parity v) s (.next (s.withResult (some (.parity (BitVec.ofBool (parityBit v))))))

end Sys2Proof.Machine
end

