-- ==== Sys2Proof/Machine/FrameEncoder.lean ====
section
/-! DEFINITION. The Frame Encoder: SYMFOR and its position table (41_frame_encoder.md). -/

namespace Sys2Proof.Machine

/-- The value a row of the position table tests (41_frame_encoder.md R121). -/
inductive Source where
  | minute | hour | day | year | weekday
  deriving DecidableEq, Repr

/-- A row of the position table: kinds MARK, ZEROK, BIT and PAR (41_frame_encoder.md R121). -/
inductive Slot where
  | mark
  | zero
  | bit (src : Source) (mask : BitVec 12)
  | par (src : Source)
  deriving DecidableEq, Repr

/-- Seconds 0 to 9: marker, minute, marker (41_frame_encoder.md R121). -/
def slots0 : List Slot :=
  [.mark, .bit .minute 0x040#12, .bit .minute 0x020#12, .bit .minute 0x010#12, .zero, .bit .minute 0x008#12,
    .bit .minute 0x004#12, .bit .minute 0x002#12, .bit .minute 0x001#12, .mark]

/-- Seconds 10 to 19: hour, marker. -/
def slots1 : List Slot :=
  [.zero, .zero, .bit .hour 0x020#12, .bit .hour 0x010#12, .zero, .bit .hour 0x008#12, .bit .hour 0x004#12,
    .bit .hour 0x002#12, .bit .hour 0x001#12, .mark]

/-- Seconds 20 to 29: the hundreds and tens of the day of the year, marker. -/
def slots2 : List Slot :=
  [.zero, .zero, .bit .day 0x200#12, .bit .day 0x100#12, .zero, .bit .day 0x080#12, .bit .day 0x040#12,
    .bit .day 0x020#12, .bit .day 0x010#12, .mark]

/-- Seconds 30 to 39: the units of the day of the year, the two parities, marker. -/
def slots3 : List Slot :=
  [.bit .day 0x008#12, .bit .day 0x004#12, .bit .day 0x002#12, .bit .day 0x001#12, .zero, .zero, .par .hour, .par .minute,
    .zero, .mark]

/-- Seconds 40 to 49: year, marker. -/
def slots4 : List Slot :=
  [.zero, .bit .year 0x080#12, .bit .year 0x040#12, .bit .year 0x020#12, .bit .year 0x010#12, .bit .year 0x008#12,
    .bit .year 0x004#12, .bit .year 0x002#12, .bit .year 0x001#12, .mark]

/-- Seconds 50 to 59: weekday, marker. -/
def slots5 : List Slot :=
  [.bit .weekday 0x004#12, .bit .weekday 0x002#12, .bit .weekday 0x001#12, .zero, .zero, .zero, .zero, .zero, .zero, .mark]

/-- `POS`, one row per second of the minute (41_frame_encoder.md R121). -/
def positionTable : List Slot := slots0 ++ slots1 ++ slots2 ++ slots3 ++ slots4 ++ slots5

/-- The row of a second; the seconds from 60 on have none and are never asked for (30_encoding.md R74). -/
def slotOf (sec : Nat) : Slot := positionTable.getD sec .zero

/-- The fields of a WallClockSample the encoder reads (00_scope.md R16), as numbers. -/
structure Sample where
  sec : Nat
  min : Nat
  hour : Nat
  doy : Nat
  year2 : Nat
  wday : Nat
  deriving DecidableEq, Repr

/-- The value under test: the BCD of a field; the weekday as a plain number (41_frame_encoder.md R120). -/
def sourceValue (t : Sample) : Source → BitVec 12
  | .minute => toBcd t.min
  | .hour => toBcd t.hour
  | .day => toBcd t.doy
  | .year => toBcd t.year2
  | .weekday => BitVec.ofNat 12 t.wday

/-- The data symbol that carries a bit. -/
def bitSymbol (b : Bool) : Symbol := if b then .one else .zero

/-- The symbol a row of the table gives for a sample (41_frame_encoder.md R120). -/
def slotSymbol (t : Sample) : Slot → Symbol
  | .mark => .marker
  | .zero => .zero
  | .bit src mask => bitSymbol (decide (sourceValue t src &&& mask ≠ 0#12))
  | .par src => bitSymbol (parityBit (sourceValue t src))

/-- `symbolFor` (41_frame_encoder.md R120): a pure function of the sample (R132). -/
def symbolFor (t : Sample) : Symbol := slotSymbol t (slotOf t.sec)

/-- SYMFOR (41_frame_encoder.md R120). -/
def execSymfor (sec min : BitVec 6) (hour : BitVec 5) (doy : BitVec 9) (year2 : BitVec 7) (wday : BitVec 3) (s : State) :
    Out :=
  timedOp (.symfor sec min hour doy year2 wday) s
    (.next (s.withResult (some (.symbol
      (symbolFor ⟨sec.toNat, min.toNat, hour.toNat, doy.toNat, year2.toNat, wday.toNat⟩)))))

/-- The pseudo-operation SYMUPD (30_encoding.md R97): SYMFOR of the operands, then SYMWR of its result. -/
def expandSymupd (sec min : BitVec 6) (hour : BitVec 5) (doy : BitVec 9) (year2 : BitVec 7) (wday : BitVec 3) :
    List Instr :=
  [.symfor sec min hour doy year2 wday,
    .symwr (symbolFor ⟨sec.toNat, min.toNat, hour.toNat, doy.toNat, year2.toNat, wday.toNat⟩).code]

end Sys2Proof.Machine
end

