-- ==== Sys2Proof/Machine/Modulator.lean ====
section
/-! DEFINITION. The Carrier Modulator: SYMWR, MODSTART, MODSTOP, TICK (42_carrier_modulator.md). -/

namespace Sys2Proof.Machine

/-- `ONLEN`, the subslots for which the carrier is ON (42_carrier_modulator.md R158). -/
def onLen : Symbol → Nat
  | .marker => 2
  | .one => 5
  | .zero => 8

/-- The level at effective subslot `k` (42_carrier_modulator.md R158). -/
def levelAt (x : Symbol) (k : BitVec 4) : Level := if k.toNat < onLen x then .on else .off

/-- The effective subslot (42_carrier_modulator.md R156, step 1): the stored counter, wrapped to 0 from 10 on. -/
def effectiveSub (k : BitVec 4) : BitVec 4 := if 10 ≤ k.toNat then 0#4 else k

/-- SYMWR (42_carrier_modulator.md R150). -/
def execSymwr (sym : BitVec 2) (s : State) : Out :=
  controlOp (.symwr sym) s
    (match Symbol.ofCode sym with
      | some x => .next ((s.writeSym x).withResult none)
      | none => .fault (.operandRange .sym sym.toNat))

/-- MODSTART (42_carrier_modulator.md R153). A failed attach restarts the device (60_exceptions.md R240). -/
def execModstart (s : State) : Out := controlOp .modstart s (.next (s.startModulator.withResult none))

/-- MODSTOP (42_carrier_modulator.md R155). -/
def execModstop (s : State) : Out := controlOp .modstop s (.next (s.stopModulator.withResult none))

/-- TICK is enabled (42_carrier_modulator.md R157). -/
def State.tickEnabled (s : State) : Bool := s.run && decide (s.pwr = .awake)

/-- The handler's effect with the symbol it read (42_carrier_modulator.md R156): drive, then advance the counter. -/
def State.tickWith (s : State) (x : Symbol) : State :=
  (s.latch (levelAt x (effectiveSub s.sub))).setSub (effectiveSub s.sub + 1#4)

/-- TICK (42_carrier_modulator.md R156). A tick that is not enabled does not exist and leaves no trace
(10_state.md R38, 60_exceptions.md R249). -/
def execTick (s : State) : Out :=
  if s.tickEnabled then
    match s.sym with
    | some x => .next ((s.tickWith x).withResult none)
    | none => .fault .symUnwritten
  else .next s

end Sys2Proof.Machine
end

