-- ==== Sys2Proof/Machine/Scheduler.lean ====
section
/-! DEFINITION. The Deadline Scheduler: CLASSIFY, SECHOUR, SECDAILY, SCHED (43_deadline_scheduler.md). All arithmetic is on
natural numbers and is narrowed at the end (R199). -/

namespace Sys2Proof.Machine

/-- The night window: half-open, wrapping past midnight (43_deadline_scheduler.md R182). -/
def inNight (c : ScheduleConfig) (h : Nat) : Bool :=
  if c.nightStartH.val ≤ c.nightEndH.val then decide (c.nightStartH.val ≤ h) && decide (h < c.nightEndH.val)
  else decide (c.nightStartH.val ≤ h) || decide (h < c.nightEndH.val)

/-- The window classifier (43_deadline_scheduler.md R181): the first test that holds gives the window. -/
def classify (c : ScheduleConfig) (h m u : Nat) (wake : Bool) : Window :=
  if u < c.bootTestMin.toNat * 60 ∧ wake = false then .bootTest
  else if h = c.wakeH.val ∧ c.wakeM.val ≤ m then .preMidnightHold
  else if inNight c h then if m < c.nightTxMin.val then .nightTransmit else .nightIdle
  else .daytimeSuspend

/-- Seconds to the next hour boundary (43_deadline_scheduler.md R196). -/
def secondsToHour (m sec : Nat) : Nat := 3600 - (60 * m + sec)

/-- The target of the daily wake, in seconds of the day (43_deadline_scheduler.md R198). -/
def dailyTarget (c : ScheduleConfig) : Nat := 3600 * c.wakeH.val + 60 * c.wakeM.val

/-- Seconds to the next pre-midnight wake instant (43_deadline_scheduler.md R198). -/
def secondsToDaily (c : ScheduleConfig) (h m sec : Nat) : Nat :=
  if dailyTarget c ≤ 3600 * h + 60 * m + sec then dailyTarget c + 86400 - (3600 * h + 60 * m + sec)
  else dailyTarget c - (3600 * h + 60 * m + sec)

/-- The rollover rule (43_deadline_scheduler.md R197): the time from `now` to the next `target` strictly in the future. -/
def untilNext (now target period : Nat) : Nat := if target ≤ now then target + period - now else target - now

/-- CLASSIFY (43_deadline_scheduler.md R186). -/
def execClassify (hour : BitVec 5) (min sec : BitVec 6) (s : State) : Out :=
  timedOp (.classify hour min sec) s
    (.next (s.withResult (some (.window (classify s.cfg hour.toNat min.toNat s.uptime.toNat s.wake)))))

/-- SECHOUR (43_deadline_scheduler.md R196). -/
def execSechour (hour : BitVec 5) (min sec : BitVec 6) (s : State) : Out :=
  timedOp (.sechour hour min sec) s
    (.next (s.withResult (some (.seconds (BitVec.ofNat 17 (secondsToHour min.toNat sec.toNat))))))

/-- SECDAILY (43_deadline_scheduler.md R198). -/
def execSecdaily (hour : BitVec 5) (min sec : BitVec 6) (s : State) : Out :=
  timedOp (.secdaily hour min sec) s
    (.next (s.withResult (some (.seconds
      (BitVec.ofNat 17 (secondsToDaily s.cfg hour.toNat min.toNat sec.toNat))))))

/-- SCHED's action in a transmitting window (43_deadline_scheduler.md R200): ensure the modulator runs. A failed attach
restarts the device, and no result is left. -/
def State.schedTransmit (s : State) (w : Window) : State :=
  if s.attachFails then s.startModulator else s.startModulator.withResult (some (.sched w .none 0#17))

/-- SCHED's action in a window that ends in a clock-preserving sleep (43_deadline_scheduler.md R200): stop, then sleep. -/
def State.schedSleepCp (s : State) (w : Window) (n : BitVec 17) : State :=
  (s.stopModulator.sleepCp n).withResult (some (.sched w .cp n))

/-- SCHED's action in a window that ends in a deep suspension (43_deadline_scheduler.md R200): stop, then suspend. -/
def State.schedSleepDeep (s : State) (w : Window) (n : BitVec 17) : State :=
  (s.stopModulator.sleepDeep n).withResult (some (.sched w .deep n))

/-- SCHED's action in each window (43_deadline_scheduler.md R200, R201). -/
def State.schedAct (s : State) (w : Window) (h m sec : Nat) : State :=
  match w with
  | .bootTest | .nightTransmit => s.schedTransmit w
  | .preMidnightHold | .nightIdle => s.schedSleepCp w (BitVec.ofNat 17 (secondsToHour m sec))
  | .daytimeSuspend => s.schedSleepDeep w (BitVec.ofNat 17 (secondsToDaily s.cfg h m sec))

/-- SCHED (43_deadline_scheduler.md R200): classify, and act. -/
def execSched (hour : BitVec 5) (min sec : BitVec 6) (s : State) : Out :=
  timedOp (.sched hour min sec) s
    (.next (s.schedAct (classify s.cfg hour.toNat min.toNat s.uptime.toNat s.wake) hour.toNat min.toNat sec.toNat))

end Sys2Proof.Machine
end

