-- ==== Sys2Proof/Machine/Sleep.lean ====
section
/-! DEFINITION. The sleep interface: SLEEPCP and SLEEPDEEP (44_sleep_interface.md). -/

namespace Sys2Proof.Machine

/-- SLEEPCP (44_sleep_interface.md R221). -/
def execSleepcp (secs : BitVec 17) (s : State) : Out :=
  sleepOp (.sleepcp secs) s (.next ((s.sleepCp secs).withResult none))

/-- SLEEPDEEP (44_sleep_interface.md R225). -/
def execSleepdeep (secs : BitVec 17) (s : State) : Out :=
  sleepOp (.sleepdeep secs) s (.next ((s.sleepDeep secs).withResult none))

end Sys2Proof.Machine
end

