-- ==== Sys2Proof/Machine/Dispatch.lean ====
section
/-! DEFINITION. The dispatch: one arm per operation. -/

namespace Sys2Proof.Machine

def exec (i : Instr) (s : State) : Host.Outcome State Fault Refusal :=
  match i with
  | .tobcd v => Sys2Proof.Machine.execTobcd v s
  | .parity v => Sys2Proof.Machine.execParity v s
  | .symfor sec min hour doy year2 wday => Sys2Proof.Machine.execSymfor sec min hour doy year2 wday s
  | .symwr sym => Sys2Proof.Machine.execSymwr sym s
  | .modstart => Sys2Proof.Machine.execModstart s
  | .modstop => Sys2Proof.Machine.execModstop s
  | .tick => Sys2Proof.Machine.execTick s
  | .classify hour min sec => Sys2Proof.Machine.execClassify hour min sec s
  | .sechour hour min sec => Sys2Proof.Machine.execSechour hour min sec s
  | .secdaily hour min sec => Sys2Proof.Machine.execSecdaily hour min sec s
  | .sched hour min sec => Sys2Proof.Machine.execSched hour min sec s
  | .sleepcp secs => Sys2Proof.Machine.execSleepcp secs s
  | .sleepdeep secs => Sys2Proof.Machine.execSleepdeep secs s

end Sys2Proof.Machine
end

