-- ==== Sys2Proof/Machine/Agents.lean ====
section
/-! DEFINITION. What each agent's event does to the core (00_scope.md R13). -/

namespace Sys2Proof.Machine

/-- The control loop presents a command word. It is decoded only while the device is awake (30_encoding.md R78); a reserved
encoding faults (R73, R76), and so does TICK, which only the timer issues (R77). -/
def issue (w : Word) (s : State) : Out :=
  if s.pwr = .awake then
    match decode w with
    | .error _ => .fault (.reservedEncoding w)
    | .ok i => if i = .tick then .fault (.reservedEncoding w) else exec i s
  else .refused .notAwake

/-- One event (00_scope.md R13, 70_reset_and_hazards.md R280). -/
def handle (e : Event) (s : State) : Out :=
  match e with
  | .command w => issue w s
  | .tick => exec .tick s
  | .wake src => .next (s.wakeBy src)
  | .powerOn => .next (s.resetBy .powerOn)
  | .manualReset => .next (s.resetBy .manual)

/-- What the environment does next takes place; where it does nothing, no agent moves and nothing changes. -/
def advance (s : State) : Out :=
  match s.nextInput with
  | none => .next s
  | some (inp, rest) => handle inp.event (s.sample inp rest)

/-- The schedule with a word presented before everything else in it. -/
def presentFirst (s : State) (nbits w : Nat) : List Input :=
  presentWord (BitVec.ofNat 40 (w % 2 ^ nbits)) :: s.schedule

end Sys2Proof.Machine
end

