-- ==== Sys2Proof/Machine/Step.lean ====
section
/-! DEFINITION. The step, and the placing of a word where the next step takes it. -/

namespace Sys2Proof.Machine

/-- One step: the environment's next event takes place, whole (20_memory.md R61). -/
def step : State → Host.Outcome State Fault Refusal := advance

/-- `s` with the command word of `nbits` bits `w` presented next (the bits above are zero). -/
def State.withFetchWord (s : State) (nbits w : Nat) : State := { s with schedule := presentFirst s nbits w }

end Sys2Proof.Machine
end

