-- ==== Sys2Proof/Safety.lean ====
section
/-! DEFINITION. The terms that claims use: the invariant of the core, what a reset leaves, what the control loop owes
(70_reset_and_hazards.md, part 3), sequences of operations, and the reading of a frame. -/

namespace Sys2Proof.Machine

/-- The invariant: clauses (a) to (d) of 10_state.md R40 (clause (e) is the type of `sym`), and what the model's own fields
for the wake timer and the reset cause add. -/
structure State.Inv (s : State) : Prop where
  /-- R40 (a). -/
  ledMirrors : s.led = s.carrier
  /-- R40 (b). -/
  stoppedIsOff : s.run = false → s.carrier = .off
  /-- R40 (c). -/
  subBound : s.sub.toNat ≤ 10
  /-- R40 (d). -/
  asleepIsStopped : s.pwr ≠ .awake → s.run = false
  /-- The wake timer is armed exactly during a halt. -/
  timerArmed : s.wakeTimer.isSome = true ↔ s.pwr ≠ .awake
  /-- The wake timer is never armed with less than 1 s or more than a day (60_exceptions.md R266). -/
  timerRange : ∀ n : BitVec 17, s.wakeTimer = some n → 1 ≤ n.toNat ∧ n.toNat ≤ 86400
  /-- `WAKE` is the latched `wake_cause` (10_state.md R26). -/
  wakeLatched : s.wake = wakeCause s.resetCause

/-- `t` is the state a reset of `s` leaves, with `WAKE` = `wake` (10_state.md R39). -/
structure IsResetOf (s t : State) (wake : Bool) : Prop where
  sym : t.sym = none
  sub : t.sub = 0#4
  run : t.run = false
  carrier : t.carrier = .off
  led : t.led = .off
  wakeFlag : t.wake = wake
  pwr : t.pwr = .awake
  cfg : t.cfg = s.cfg
  uptime : t.uptime = 0#32
  wakeTimer : t.wakeTimer = none

/-- The symbol is that of the sample `t`: what the control loop owes at every tick (70_reset_and_hazards.md R292). -/
def State.Fresh (s : State) (t : Sample) : Prop := s.sym = some (symbolFor t)

/-- The operations of a list one after the other, stopping at the first that answers no next state. -/
def execAll : List Instr → State → Out
  | [], s => .next s
  | i :: is, s =>
    match exec i s with
    | .next t => execAll is t
    | .fault r => .fault r
    | .refused r => .refused r

/-- `n` ticks. -/
def ticks (n : Nat) (s : State) : Out := execAll (List.replicate n .tick) s

/-- The level a symbol gives at a subslot, by the ON durations of 42_carrier_modulator.md R158: 200 ms for MARKER, 500 ms for
ONE, 800 ms for ZERO, from the start of the second, in steps of 100 ms. -/
def waveform (x : Symbol) (k : Nat) : Level :=
  if 100 * k < (match x with | .marker => 200 | .one => 500 | .zero => 800) then .on else .off

/-- The value read from a frame: the sum of the weights of the seconds that carry ONE (41_frame_encoder.md R134 e). -/
def frameValue (frame : Nat → Symbol) : List (Nat × Nat) → Nat
  | [] => 0
  | (sec, weight) :: rest => (if frame sec = .one then weight else 0) + frameValue frame rest

/-- The seconds of the minute and their weights (41_frame_encoder.md R134 e). -/
def minuteWeights : List (Nat × Nat) := [(1, 40), (2, 20), (3, 10), (5, 8), (6, 4), (7, 2), (8, 1)]

/-- The seconds of the hour and their weights (41_frame_encoder.md R134 e). -/
def hourWeights : List (Nat × Nat) := [(12, 20), (13, 10), (15, 8), (16, 4), (17, 2), (18, 1)]

/-- The seconds of the day of the year and their weights (41_frame_encoder.md R121). -/
def dayWeights : List (Nat × Nat) :=
  [(22, 200), (23, 100), (25, 80), (26, 40), (27, 20), (28, 10), (30, 8), (31, 4), (32, 2), (33, 1)]

/-- The seconds of the two-digit year and their weights (41_frame_encoder.md R121). -/
def yearWeights : List (Nat × Nat) := [(41, 80), (42, 40), (43, 20), (44, 10), (45, 8), (46, 4), (47, 2), (48, 1)]

/-- The seconds of the weekday and their weights (41_frame_encoder.md R121). -/
def weekdayWeights : List (Nat × Nat) := [(50, 4), (51, 2), (52, 1)]

/-- How many seconds of a list carry ONE. -/
def onesAmong (frame : Nat → Symbol) (secs : List Nat) : Nat := secs.countP fun k => frame k == .one

/-- The number of 1 bits among bits 0 to 7 (00_scope.md R10). -/
def lowPopcount (v : Nat) : Nat := (List.range 8).countP fun k => v.testBit k

/-- The marker seconds (41_frame_encoder.md R122). -/
def markerSeconds : List Nat := [0, 9, 19, 29, 39, 49, 59]

/-- The reserved-zero and the unused seconds (41_frame_encoder.md R129, R130). -/
def zeroSeconds : List Nat := [4, 14, 24, 10, 11, 20, 21, 34, 35, 38, 40, 53, 54, 55, 56, 57, 58]

/-- The wall-clock fields of format T are legal (30_encoding.md R74). -/
def LegalDate (min : BitVec 6) (hour : BitVec 5) (doy : BitVec 9) (year2 : BitVec 7) (wday : BitVec 3) : Prop :=
  min.toNat < 60 ∧ hour.toNat < 24 ∧ (1 ≤ doy.toNat ∧ doy.toNat ≤ 366) ∧ year2.toNat < 100 ∧ wday.toNat < 7

/-- The fields of format HMS are legal (30_encoding.md R74). -/
def LegalTime (hour : BitVec 5) (min sec : BitVec 6) : Prop := hour.toNat < 24 ∧ min.toNat < 60 ∧ sec.toNat < 60

/-- No word with operation code `op` and a 1 among bits 35 to `k` decodes (30_encoding.md R73). -/
def RefusesHighBits (op k : Nat) : Prop :=
  ∀ w : Word, w.toNat / 2 ^ 36 = op → w.toNat / 2 ^ k % 2 ^ (36 - k) ≠ 0 → ∀ i : Instr, decode w ≠ .ok i

/-- The device is awake and the time is trusted: what an operation with wall-clock operands needs (30_encoding.md R78). -/
def State.ReadyTimed (s : State) : Prop := s.pwr = .awake ∧ s.ports.timeTrusted = true

end Sys2Proof.Machine
end

