-- ==== Sys2Proof/Certificates/Slice0/Obligations.lean ====
section
/-! DEFINITION. The statements for the provers. Each docstring names the rule of the spec it formalises; where a clause rests
on the model's own choice, it names the log entry. -/

open Sys2Proof Sys2Proof.Machine

/-! ### Encoding -/

/-- Decoding the word of an operation gives the operation back, with every operand at every value its field can hold
(30_encoding.md R71, R72, R75).
Rests on the spec's own decisions D2 and D3. -/
def Obligations.DecodeOfEncode : Prop := ∀ i : Instr, decode (encode i) = .ok i

/-- A word that decodes is the word of the operation it decodes to: no bit of it is ignored (30_encoding.md R71, R73).
Rests on the spec's own decisions D2 and D14. -/
def Obligations.EncodeOfDecode : Prop := ∀ (w : Word) (i : Instr), decode w = .ok i → encode i = w

/-- The words of the six formats as numbers, every field at its place (30_encoding.md R71).
Rests on the spec's own decisions D2 and D3. -/
def Obligations.FieldPositions : Prop :=
  (∀ v : BitVec 12, (encode (.tobcd v)).toNat = 0x1000000000 + v.toNat ∧ (encode (.parity v)).toNat = 0x2000000000 + v.toNat) ∧
  (∀ (sec min : BitVec 6) (hour : BitVec 5) (doy : BitVec 9) (year2 : BitVec 7) (wday : BitVec 3),
    (encode (.symfor sec min hour doy year2 wday)).toNat =
      0x3000000000 + sec.toNat * 2 ^ 30 + min.toNat * 2 ^ 24 + hour.toNat * 2 ^ 19 + doy.toNat * 2 ^ 10 +
        year2.toNat * 2 ^ 3 + wday.toNat) ∧
  (∀ sym : BitVec 2, (encode (.symwr sym)).toNat = 0x4000000000 + sym.toNat) ∧
  ((encode .modstart).toNat = 0x5000000000 ∧ (encode .modstop).toNat = 0x6000000000 ∧
    (encode .tick).toNat = 0x7000000000) ∧
  (∀ (hour : BitVec 5) (min sec : BitVec 6),
    (encode (.classify hour min sec)).toNat = 0x8000000000 + hour.toNat * 2 ^ 12 + min.toNat * 2 ^ 6 + sec.toNat ∧
    (encode (.sechour hour min sec)).toNat = 0x9000000000 + hour.toNat * 2 ^ 12 + min.toNat * 2 ^ 6 + sec.toNat ∧
    (encode (.secdaily hour min sec)).toNat = 0xA000000000 + hour.toNat * 2 ^ 12 + min.toNat * 2 ^ 6 + sec.toNat ∧
    (encode (.sched hour min sec)).toNat = 0xB000000000 + hour.toNat * 2 ^ 12 + min.toNat * 2 ^ 6 + sec.toNat) ∧
  (∀ secs : BitVec 17, (encode (.sleepcp secs)).toNat = 0xC000000000 + secs.toNat ∧
    (encode (.sleepdeep secs)).toNat = 0xD000000000 + secs.toNat)

/-- A word selects an operation exactly when its fixed bits are the operation's (30_encoding.md R73).
Rests on the spec's own decisions D3 and D14. -/
def Obligations.WordSelectsOperationByMask : Prop :=
  ∀ (w : Word) (o : Op), w &&& o.format.mask = o.matchWord ↔ ∃ i, decode w = .ok i ∧ i.op = o

/-- A few words, written out from the spec's encoding, and the operations they stand for (95_test_vectors.md).
Rests on the spec's own decisions D2 and D3. -/
def Obligations.WordsDecodeAsSpecified : Prop :=
  decode 0x100000003B#40 = .ok (.tobcd 59#12) ∧
  decode 0x307BBDB71E#40 = .ok (.symfor 1#6 59#6 23#5 365#9 99#7 6#3) ∧
  decode 0x4000000002#40 = .ok (.symwr 2#2) ∧
  decode 0x6000000000#40 = .ok .modstop ∧
  decode 0xA000017EF2#40 = .ok (.secdaily 23#5 59#6 50#6) ∧
  decode 0xC000000960#40 = .ok (.sleepcp 2400#17)

/-! ### The step -/

/-- When the environment's next event is a command word that decodes to an operation of the control loop, or a tick, the step
is `exec` of it at the state in which `U` has advanced, the ports show the values of that moment and the event is gone. A word
placed by `withFetchWord` is run next in the same way. With no event a step changes nothing. The schedule is the model's (log
entry 1).
Rests on the spec's own decisions D4 and D36. -/
def Obligations.StepRunsDecodedOperation : Prop :=
  (∀ (s : State) (n : Nat) (p : Ports) (w : Word) (i : Instr) (rest : List Input),
    s.nextInput = some (⟨n, p, .command w⟩, rest) → s.pwr = .awake → decode w = .ok i → i ≠ .tick →
      step s = exec i { s with uptime := advanceUptime s.uptime n, ports := p, schedule := rest }) ∧
  (∀ (s : State) (n : Nat) (p : Ports) (rest : List Input),
    s.nextInput = some (⟨n, p, .tick⟩, rest) →
      step s = exec .tick { s with uptime := advanceUptime s.uptime n, ports := p, schedule := rest }) ∧
  (∀ (s : State) (nbits w : Nat) (i : Instr),
    s.pwr = .awake → decodeTableWord nbits w = some i →
      step (s.withFetchWord nbits w) =
        exec i { s with ports := { usec := 0, pwmAttachOk := true, timeTrusted := true } }) ∧
  (∀ s : State, s.nextInput = none → step s = .next s)

/-- Every word presented to an awake device has one outcome (30_encoding.md R76): the reserved operation codes fault whatever the
low 36 bits; a word that selects no operation, or TICK, faults with ReservedEncoding; a word that selects one whose field is
illegal faults with OperandRange; every other word selects exactly one operation, and it runs.
Rests on the spec's own decisions D3, D13, D14 and D42. -/
def Obligations.EveryWordHasOneOutcome : Prop :=
  ∀ (s : State) (n : Nat) (p : Ports) (w : Word) (rest : List Input),
    s.nextInput = some (⟨n, p, .command w⟩, rest) → s.pwr = .awake →
      (w.toNat / 2 ^ 36 = 0x0 ∨ w.toNat / 2 ^ 36 = 0xE ∨ w.toNat / 2 ^ 36 = 0xF → step s = .fault (.reservedEncoding w)) ∧
      (((∀ o : Op, w &&& o.format.mask ≠ o.matchWord) ∨ w = 0x7000000000#40) ∧ step s = .fault (.reservedEncoding w) ∨
        ∃ i : Instr, decode w = .ok i ∧ i ≠ .tick ∧ (∀ o : Op, w &&& o.format.mask = o.matchWord ↔ o = i.op) ∧
          (i.wf = false → ∃ f v, step s = .fault (.operandRange f v)) ∧
          (i.wf = true →
            step s = exec i { s with uptime := advanceUptime s.uptime n, ports := p, schedule := rest }))

/-! ### Faults -/

/-- On an awake device an operation faults with OperandRange exactly when a field is outside its legal range
(30_encoding.md R74).
Rests on the spec's own decision D13. -/
def Obligations.OperandRangeExactly : Prop :=
  ∀ (i : Instr) (s : State), s.pwr = .awake →
    ((∃ (f : Field) (v : Nat), exec i s = .fault (.operandRange f v)) ↔ i.wf = false)

/-- The fault reported is the first in the order OperandRange (fields from the high bits to the low), TimeUntrusted,
SleepWhileRunning (60_exceptions.md R255), for the three formats (T, HMS, D) that can break
several rules.
Rests on the spec's own decision D30. -/
def Obligations.FaultPriority : Prop :=
  (∀ (s : State) (hour : BitVec 5) (min sec : BitVec 6) (i : Instr), s.pwr = .awake →
    i ∈ [Instr.classify hour min sec, .sechour hour min sec, .secdaily hour min sec, .sched hour min sec] →
      (24 ≤ hour.toNat → exec i s = .fault (.operandRange .hour hour.toNat)) ∧
      (hour.toNat < 24 → 60 ≤ min.toNat → exec i s = .fault (.operandRange .min min.toNat)) ∧
      (hour.toNat < 24 → min.toNat < 60 → 60 ≤ sec.toNat → exec i s = .fault (.operandRange .sec sec.toNat)) ∧
      (LegalTime hour min sec → s.ports.timeTrusted = false → exec i s = .fault (.timeUntrusted i.op))) ∧
  (∀ (s : State) (sec min : BitVec 6) (hour : BitVec 5) (doy : BitVec 9) (year2 : BitVec 7) (wday : BitVec 3),
    s.pwr = .awake →
      (60 ≤ sec.toNat → exec (.symfor sec min hour doy year2 wday) s = .fault (.operandRange .sec sec.toNat)) ∧
      (sec.toNat < 60 → 60 ≤ min.toNat →
        exec (.symfor sec min hour doy year2 wday) s = .fault (.operandRange .min min.toNat)) ∧
      (sec.toNat < 60 → min.toNat < 60 → 24 ≤ hour.toNat →
        exec (.symfor sec min hour doy year2 wday) s = .fault (.operandRange .hour hour.toNat)) ∧
      (sec.toNat < 60 → min.toNat < 60 → hour.toNat < 24 → (doy.toNat = 0 ∨ 366 < doy.toNat) →
        exec (.symfor sec min hour doy year2 wday) s = .fault (.operandRange .doy doy.toNat)) ∧
      (sec.toNat < 60 → min.toNat < 60 → hour.toNat < 24 → 1 ≤ doy.toNat → doy.toNat ≤ 366 → 100 ≤ year2.toNat →
        exec (.symfor sec min hour doy year2 wday) s = .fault (.operandRange .year2 year2.toNat)) ∧
      (sec.toNat < 60 → min.toNat < 60 → hour.toNat < 24 → 1 ≤ doy.toNat → doy.toNat ≤ 366 → year2.toNat < 100 →
        7 ≤ wday.toNat → exec (.symfor sec min hour doy year2 wday) s = .fault (.operandRange .wday wday.toNat)) ∧
      (sec.toNat < 60 → LegalDate min hour doy year2 wday → s.ports.timeTrusted = false →
        exec (.symfor sec min hour doy year2 wday) s = .fault (.timeUntrusted .symfor))) ∧
  (∀ (s : State) (secs : BitVec 17), s.pwr = .awake →
      (86400 < secs.toNat → exec (.sleepcp secs) s = .fault (.operandRange .secs secs.toNat)) ∧
      (secs.toNat = 0 ∨ 86400 < secs.toNat → exec (.sleepdeep secs) s = .fault (.operandRange .secs secs.toNat)) ∧
      (secs.toNat ≤ 86400 → s.run = true → exec (.sleepcp secs) s = .fault .sleepWhileRunning) ∧
      (1 ≤ secs.toNat → secs.toNat ≤ 86400 → s.run = true → exec (.sleepdeep secs) s = .fault .sleepWhileRunning))

/-- TimeUntrusted arises from the five operations with wall-clock operands and from no other, exactly when the time is not
trusted (60_exceptions.md R242).
Rests on the spec's own decision D37. -/
def Obligations.UntrustedTimeExactly : Prop :=
  ∀ (i : Instr) (s : State), s.pwr = .awake → i.wf = true →
    ((∃ o, exec i s = .fault (.timeUntrusted o)) ↔
      i.op ∈ [Op.symfor, .classify, .sechour, .secdaily, .sched] ∧ s.ports.timeTrusted = false)

/-- A tick that finds the symbol cell unwritten faults, and no other operation faults so (60_exceptions.md R246).
Rests on the spec's own decision D19. -/
def Obligations.UnwrittenSymbolExactly : Prop :=
  ∀ (i : Instr) (s : State),
    exec i s = .fault .symUnwritten ↔ i = .tick ∧ s.run = true ∧ s.pwr = .awake ∧ s.sym = none

/-- While the device sleeps no operation of the control loop runs, whether asked of `exec` or presented as a word, and a tick
leaves no trace; the model refuses the former by name (30_encoding.md R78, 10_state.md R28; log entry 6).
Rests on the spec's own decisions D32 and D35. -/
def Obligations.NothingRunsAsleep : Prop :=
  (∀ (i : Instr) (s : State), s.pwr ≠ .awake → i ≠ .tick → exec i s = .refused .notAwake) ∧
  (∀ s : State, s.pwr ≠ .awake → exec .tick s = .next s) ∧
  (∀ (s : State) (n : Nat) (p : Ports) (w : Word) (rest : List Input),
    s.nextInput = some (⟨n, p, .command w⟩, rest) → s.pwr ≠ .awake → step s = .refused .notAwake)

/-! ### BCD and parity -/

/-- TOBCD of a legal value completes with `256*h + 16*t + u` and writes nothing else (40_bcd_parity.md R100, R103).
Rests on the spec's own decision D6. -/
def Obligations.TobcdResult : Prop :=
  ∀ (s : State) (v : BitVec 12), s.pwr = .awake → v.toNat ≤ 999 →
    exec (.tobcd v) s = .next { s with result := some (.bcd
      (BitVec.ofNat 12 (256 * (v.toNat / 100) + 16 * (v.toNat / 10 % 10) + v.toNat % 10))) }

/-- The laws (a) to (e) of TOBCD on the results it gives (40_bcd_parity.md R104): the digits give the value back, two values
never share a result, every digit is at most 9, and the bits the frame does not send are zero.
Rests on the spec's own decision D6. -/
def Obligations.TobcdLaws : Prop :=
  ∀ (s : State) (v : BitVec 12), s.pwr = .awake → v.toNat ≤ 999 →
    ∃ b : BitVec 12, exec (.tobcd v) s = .next { s with result := some (.bcd b) } ∧
      100 * (b.toNat / 256) + 10 * (b.toNat / 16 % 16) + b.toNat % 16 = v.toNat ∧
      (∀ v' : BitVec 12, v'.toNat ≤ 999 →
        exec (.tobcd v') s = .next { s with result := some (.bcd b) } → v' = v) ∧
      (b.toNat / 256 ≤ 9 ∧ b.toNat / 16 % 16 ≤ 9 ∧ b.toNat % 16 ≤ 9) ∧
      (v.toNat ≤ 99 → b.toNat < 2 ^ 8) ∧
      (v.toNat ≤ 59 → b.getLsbD 7 = false) ∧
      (v.toNat ≤ 23 → b.getLsbD 7 = false ∧ b.getLsbD 6 = false) ∧
      (v.toNat ≤ 366 → b.getLsbD 11 = false ∧ b.getLsbD 10 = false)

/-- TOBCD above 999 faults with OperandRange and gives no value (40_bcd_parity.md R101).
Rests on the spec's own decision D13. -/
def Obligations.TobcdOutOfContract : Prop :=
  ∀ (s : State) (v : BitVec 12), s.pwr = .awake → 999 < v.toNat →
    exec (.tobcd v) s = .fault (.operandRange .v v.toNat)

/-- PARITY completes for every value with the number of 1 bits among bits 0 to 7 modulo 2, and writes nothing else; its word is
`0x2000000000 | v`, and a word of its code with a 1 in bits 35:12 is refused (40_bcd_parity.md R105). -/
def Obligations.ParityResult : Prop :=
  (∀ (s : State) (v : BitVec 12), s.pwr = .awake →
    exec (.parity v) s = .next { s with result := some (.parity (BitVec.ofNat 1 (lowPopcount v.toNat))) }) ∧
  (∀ v : BitVec 12, (encode (.parity v)).toNat = 0x2000000000 + v.toNat) ∧ RefusesHighBits 0x2 12

/-! ### The frame -/

/-- SYMFOR of legal fields completes with one symbol, the same in every state in which it may be issued, and the symbol is
MARKER exactly at the seven marker seconds (41_frame_encoder.md R122, R132). That it is MARKER at no other second is the spec's
own derivation (R133). -/
def Obligations.SymforPureAndMarkers : Prop :=
  ∀ (sec min : BitVec 6) (hour : BitVec 5) (doy : BitVec 9) (year2 : BitVec 7) (wday : BitVec 3),
    sec.toNat < 60 → LegalDate min hour doy year2 wday →
      ∃ x : Symbol, (x = .marker ↔ sec.toNat ∈ markerSeconds) ∧
        ∀ s : State, s.ReadyTimed →
          exec (.symfor sec min hour doy year2 wday) s = .next { s with result := some (.symbol x) }

/-- The reserved-zero and the unused seconds yield ZERO for all fields (41_frame_encoder.md R129, R130). -/
def Obligations.ZeroSeconds : Prop :=
  ∀ (s : State) (sec min : BitVec 6) (hour : BitVec 5) (doy : BitVec 9) (year2 : BitVec 7) (wday : BitVec 3),
    s.ReadyTimed → LegalDate min hour doy year2 wday → sec.toNat ∈ zeroSeconds →
      exec (.symfor sec min hour doy year2 wday) s = .next { s with result := some (.symbol .zero) }

/-- The minute and hour seconds carry the bits of the decimal digits, most significant first (41_frame_encoder.md R123,
R124): a pair names a second and the bit of the digit it carries.
Rests on the spec's own decision D6. -/
def Obligations.MinuteAndHourBits : Prop :=
  ∀ (s : State) (min : BitVec 6) (hour : BitVec 5) (doy : BitVec 9) (year2 : BitVec 7) (wday : BitVec 3),
    s.ReadyTimed → LegalDate min hour doy year2 wday →
      (∀ p ∈ [(1#6, 2), (2#6, 1), (3#6, 0)], exec (.symfor p.1 min hour doy year2 wday) s =
        .next { s with result := some (.symbol (if (min.toNat / 10).testBit p.2 then .one else .zero)) }) ∧
      (∀ p ∈ [(5#6, 3), (6#6, 2), (7#6, 1), (8#6, 0)], exec (.symfor p.1 min hour doy year2 wday) s =
        .next { s with result := some (.symbol (if (min.toNat % 10).testBit p.2 then .one else .zero)) }) ∧
      (∀ p ∈ [(12#6, 1), (13#6, 0)], exec (.symfor p.1 min hour doy year2 wday) s =
        .next { s with result := some (.symbol (if (hour.toNat / 10).testBit p.2 then .one else .zero)) }) ∧
      (∀ p ∈ [(15#6, 3), (16#6, 2), (17#6, 1), (18#6, 0)], exec (.symfor p.1 min hour doy year2 wday) s =
        .next { s with result := some (.symbol (if (hour.toNat % 10).testBit p.2 then .one else .zero)) })

/-- The parity seconds (41_frame_encoder.md R126): 36 is ONE exactly when the hour's BCD has an odd number of ones, 37 the
minute's; with its parity second each field's data seconds carry an even number of ONEs.
Rests on the spec's own decision D6. -/
def Obligations.ParitySeconds : Prop :=
  ∀ (s : State) (min : BitVec 6) (hour : BitVec 5) (doy : BitVec 9) (year2 : BitVec 7) (wday : BitVec 3),
    s.ReadyTimed → LegalDate min hour doy year2 wday →
      ∃ frame : Nat → Symbol,
        (∀ sec : BitVec 6, sec.toNat < 60 → exec (.symfor sec min hour doy year2 wday) s =
          .next { s with result := some (.symbol (frame sec.toNat)) }) ∧
        (frame 36 = if lowPopcount (16 * (hour.toNat / 10) + hour.toNat % 10) % 2 = 1 then .one else .zero) ∧
        (frame 37 = if lowPopcount (16 * (min.toNat / 10) + min.toNat % 10) % 2 = 1 then .one else .zero) ∧
        onesAmong frame [12, 13, 14, 15, 16, 17, 18, 36] % 2 = 0 ∧
        onesAmong frame [1, 2, 3, 4, 5, 6, 7, 8, 37] % 2 = 0

/-- Reading a frame by its weights gives back the minute, the hour, the day of the year, the two-digit year and the weekday
it was encoded from (41_frame_encoder.md R134 e, R121). For the last three fields the bit order is the spec's decision D10.
Rests on the spec's own decisions D10 and D11. -/
def Obligations.FrameRoundTrip : Prop :=
  ∀ (s : State) (min : BitVec 6) (hour : BitVec 5) (doy : BitVec 9) (year2 : BitVec 7) (wday : BitVec 3),
    s.ReadyTimed → LegalDate min hour doy year2 wday →
      ∃ frame : Nat → Symbol,
        (∀ sec : BitVec 6, sec.toNat < 60 → exec (.symfor sec min hour doy year2 wday) s =
          .next { s with result := some (.symbol (frame sec.toNat)) }) ∧
        frameValue frame minuteWeights = min.toNat ∧
        frameValue frame hourWeights = hour.toNat ∧
        frameValue frame dayWeights = doy.toNat ∧
        frameValue frame yearWeights = year2.toNat ∧
        frameValue frame weekdayWeights = wday.toNat

/-! ### The modulator -/

/-- SYMWR of each symbol's code completes: the cell holds the symbol and nothing else changes; code 3 faults
(42_carrier_modulator.md R150).
Rests on the spec's own decisions D7 and D13. -/
def Obligations.SymwrWritesTheCell : Prop :=
  ∀ s : State, s.pwr = .awake →
    exec (.symwr 0#2) s = .next { s with sym := some .zero, result := none } ∧
    exec (.symwr 1#2) s = .next { s with sym := some .one, result := none } ∧
    exec (.symwr 2#2) s = .next { s with sym := some .marker, result := none } ∧
    exec (.symwr 3#2) s = .fault (.operandRange .sym 3)

/-- MODSTART on a stopped modulator whose PWM attaches completes: the counter is cleared, RUN is set, and no other state of the
core changes (42_carrier_modulator.md R153, R154). That the port USEC reads 0 afterwards is the model's choice (log entry 11).
The running form is in StartAndStopAreIdempotent, the failed attach in AttachFailureRestarts.
Rests on the spec's own decisions D17, D18, D24 and D40. -/
def Obligations.ModstartStarts : Prop :=
  ∀ s : State, s.pwr = .awake → s.run = false → s.ports.pwmAttachOk = true →
    exec .modstart s =
      .next { s with sub := 0#4, run := true, ports := { s.ports with usec := 0 }, result := none }

/-- A failed attach restarts the device, from MODSTART and from a SCHED in a transmitting window: a reset with WAKE = 0, and
no result (60_exceptions.md R240, R258).
Rests on the spec's own decisions D33 and D39. -/
def Obligations.AttachFailureRestarts : Prop :=
  (∀ s : State, s.pwr = .awake → s.run = false → s.ports.pwmAttachOk = false →
    ∃ t, exec .modstart s = .next t ∧ IsResetOf s t false ∧ t.result = none ∧ t.resetCause = .restart) ∧
  (∀ (s : State) (hour : BitVec 5) (min sec : BitVec 6) (w : Window),
    s.ReadyTimed → s.run = false → s.ports.pwmAttachOk = false → LegalTime hour min sec →
    exec (.classify hour min sec) s = .next { s with result := some (.window w) } →
    w = .bootTest ∨ w = .nightTransmit →
      ∃ t, exec (.sched hour min sec) s = .next t ∧ IsResetOf s t false ∧ t.result = none ∧ t.resetCause = .restart)

/-- MODSTOP completes: a running modulator is detached and its output forced to the idle level, SYM and SUB kept; on a stopped
one it is a no-op (42_carrier_modulator.md R155).
Rests on the spec's own decisions D17 and D23. -/
def Obligations.ModstopStops : Prop :=
  ∀ s : State, s.pwr = .awake →
    (s.run = true →
      exec .modstop s = .next { s with run := false, carrier := .off, led := .off, result := none }) ∧
    (s.run = false → exec .modstop s = .next { s with result := none })

/-- Stopping twice is stopping once; starting a running modulator is a no-op that waits for nothing and reads no port
(42_carrier_modulator.md R162).
Rests on the spec's own decision D17. -/
def Obligations.StartAndStopAreIdempotent : Prop :=
  (∀ s t : State, exec .modstop s = .next t → exec .modstop t = .next t) ∧
  (∀ s : State, s.pwr = .awake → s.run = true → exec .modstart s = .next { s with result := none })

/-- An enabled tick with a written symbol completes whatever the rest of the state: with `k` the counter wrapped at 10, it
drives the carrier and the indicator ON exactly when `k` is below 2, 5 or 8 for MARKER, ONE or ZERO, stores `k + 1`, and
changes nothing else (42_carrier_modulator.md R156, R158).
Rests on the spec's own decisions D17 and D19. -/
def Obligations.TickEffect : Prop :=
  ∀ (s : State) (x : Symbol), s.run = true → s.pwr = .awake → s.sym = some x →
    exec .tick s = .next { s with
      carrier := waveform x (if s.sub.toNat < 10 then s.sub.toNat else 0)
      led := waveform x (if s.sub.toNat < 10 then s.sub.toNat else 0)
      sub := BitVec.ofNat 4 ((if s.sub.toNat < 10 then s.sub.toNat else 0) + 1)
      result := none }

/-- A tick that is not enabled leaves no trace (10_state.md R38, 42_carrier_modulator.md R157; log entry 5).
Rests on the spec's own decision D35. -/
def Obligations.DisabledTickIsNoStep : Prop := ∀ s : State, s.run = false → exec .tick s = .next s

/-- After a start, tick number `n` (from 1) has effective subslot `(n-1) mod 10`, shows the symbol's level there and leaves
SUB = `((n-1) mod 10) + 1`; nothing but the counter and the outputs changes (42_carrier_modulator.md R164).
Rests on the spec's own decision D17. -/
def Obligations.NthTickAfterStart : Prop :=
  ∀ (s : State) (x : Symbol) (n : Nat), s.run = true → s.pwr = .awake → s.sym = some x → s.sub = 0#4 → 1 ≤ n →
    ticks n s = .next { s with
      sub := BitVec.ofNat 4 ((n - 1) % 10 + 1)
      carrier := waveform x ((n - 1) % 10)
      led := waveform x ((n - 1) % 10)
      result := none }

/-- One second of output from SUB in 0 or 10 with the symbol held: after each of ten ticks the carrier is the symbol's level of
that subslot, and SUB ends at 10 (42_carrier_modulator.md R163).
Rests on the spec's own decision D17. -/
def Obligations.OneSecondOfOutput : Prop :=
  ∀ (s : State) (x : Symbol), s.run = true → s.pwr = .awake → s.sym = some x → (s.sub = 0#4 ∨ s.sub = 10#4) →
    ∀ k < 10, ∃ t, ticks (k + 1) s = .next t ∧ t.carrier = waveform x k ∧ t.led = waveform x k ∧
      t.sub = BitVec.ofNat 4 (k + 1)

/-- A tick reads the write that precedes it: after SYMWR the next tick shows the new symbol at the effective subslot, which is 0
where the stored counter is 10 (20_memory.md R62).
Rests on the spec's own decisions D7 and D17. -/
def Obligations.TickReadsLatestWrite : Prop :=
  ∀ (s : State) (x : Symbol), s.run = true → s.pwr = .awake →
    ∃ t, execAll [.symwr x.code, .tick] s = .next t ∧ t.sym = some x ∧
      t.carrier = waveform x (if s.sub.toNat < 10 then s.sub.toNat else 0) ∧ t.led = t.carrier

/-- A symbol written late, but before the tick of subslot 2, gives the waveform of a timely write (70_reset_and_hazards.md
R292, last sentence).
Rests on the spec's own decision D17. -/
def Obligations.LateWriteSameWaveform : Prop :=
  ∀ (s : State) (x y : Symbol), s.run = true → s.pwr = .awake → s.sym = some x → (s.sub = 0#4 ∨ s.sub = 10#4) →
    ∃ (a b c d e f : State),
      execAll [.symwr y.code, .tick] s = .next a ∧ execAll [.symwr y.code, .tick, .tick] s = .next b ∧
      execAll [.tick] s = .next c ∧ execAll [.tick, .symwr y.code, .tick] s = .next d ∧
      execAll [.tick, .tick] s = .next e ∧ execAll [.tick, .tick, .symwr y.code] s = .next f ∧
      a.carrier = c.carrier ∧ b.carrier = d.carrier ∧ b.carrier = e.carrier ∧
      { b with result := none } = { d with result := none } ∧ { b with result := none } = { f with result := none }

/-- A tick and a MODSTOP that fall together end in the same state whichever comes first, but for SUB (60_exceptions.md R254).
Rests on the spec's own decision D36. -/
def Obligations.TickAndStopCommute : Prop :=
  ∀ (s : State) (x : Symbol), s.run = true → s.pwr = .awake → s.sym = some x →
    ∃ a b, execAll [.tick, .modstop] s = .next a ∧ execAll [.modstop, .tick] s = .next b ∧ a = { b with sub := a.sub }

/-- What a tick does to the outputs and the counter depends on SYM, SUB, RUN and PWR alone: no other state, no port and no
configuration reaches the carrier (60_exceptions.md R257).
Rests on the spec's own decision D36. -/
def Obligations.TickDependsOnModulatorOnly : Prop :=
  ∀ s s' t : State, s.sym = s'.sym → s.sub = s'.sub → s.run = s'.run → s.pwr = s'.pwr → s.run = true → s.pwr = .awake →
    exec .tick s = .next t →
      ∃ t', exec .tick s' = .next t' ∧ t'.carrier = t.carrier ∧ t'.led = t.led ∧ t'.sub = t.sub

/-- SYMUPD expands to SYMFOR and then SYMWR of the symbol it gave; run on an awake device with trusted time it completes, leaves
that symbol in the cell, so that the cell is fresh for the sample, and changes nothing else (30_encoding.md R97).
Rests on the spec's own decision D12. -/
def Obligations.SymupdLatchesFrameSymbol : Prop :=
  ∀ (s : State) (sec min : BitVec 6) (hour : BitVec 5) (doy : BitVec 9) (year2 : BitVec 7) (wday : BitVec 3),
    s.ReadyTimed → sec.toNat < 60 → LegalDate min hour doy year2 wday →
      ∃ x : Symbol,
        exec (.symfor sec min hour doy year2 wday) s = .next { s with result := some (.symbol x) } ∧
        expandSymupd sec min hour doy year2 wday = [.symfor sec min hour doy year2 wday, .symwr x.code] ∧
        execAll (expandSymupd sec min hour doy year2 wday) s = .next { s with sym := some x, result := none } ∧
        ({ s with sym := some x, result := none } : State).Fresh
          ⟨sec.toNat, min.toNat, hour.toNat, doy.toNat, year2.toNat, wday.toNat⟩

/-- A written symbol stays in the cell through every step, start, stop and sleep, until a SYMWR overwrites it or a reset loses it
(42_carrier_modulator.md R151).
Rests on the spec's own decision D19. -/
def Obligations.SymbolSurvivesUntilReset : Prop :=
  ∀ (s t : State) (x : Symbol), s.sym = some x → step s = .next t →
    t.sym = some x ∨
    (∃ n p rest y, s.nextInput = some (⟨n, p, .command (encode (.symwr (Symbol.code y)))⟩, rest) ∧ t.sym = some y) ∨
    IsResetOf s t t.wake

/-! ### The scheduler -/

/-- CLASSIFY of a legal time completes with the window the ordered tests give and writes nothing else (43_deadline_scheduler.md
R181, R182, R186).
Rests on the spec's own decisions D21, D22 and D25. -/
def Obligations.ClassifyResult : Prop :=
  ∀ (s : State) (hour : BitVec 5) (min sec : BitVec 6), s.ReadyTimed → LegalTime hour min sec →
    exec (.classify hour min sec) s = .next { s with result := some (.window (
      if s.uptime.toNat < s.cfg.bootTestMin.toNat * 60 ∧ s.wake = false then .bootTest
      else if hour.toNat = s.cfg.wakeH.val ∧ s.cfg.wakeM.val ≤ min.toNat then .preMidnightHold
      else if (if s.cfg.nightStartH.val ≤ s.cfg.nightEndH.val
               then s.cfg.nightStartH.val ≤ hour.toNat ∧ hour.toNat < s.cfg.nightEndH.val
               else s.cfg.nightStartH.val ≤ hour.toNat ∨ hour.toNat < s.cfg.nightEndH.val)
        then (if min.toNat < s.cfg.nightTxMin.val then .nightTransmit else .nightIdle)
      else .daytimeSuspend)) }

/-- The night window as hours around the clock: where neither the boot test nor the hold applies, CLASSIFY gives a night window exactly when the
hours from the start to now are fewer than those from the start to the end (43_deadline_scheduler.md R182).
Rests on the spec's own decision D21. -/
def Obligations.NightWindowAroundTheClock : Prop :=
  ∀ (s : State) (hour : BitVec 5) (min sec : BitVec 6), s.ReadyTimed → LegalTime hour min sec →
    ¬(s.uptime.toNat < s.cfg.bootTestMin.toNat * 60 ∧ s.wake = false) →
    ¬(hour.toNat = s.cfg.wakeH.val ∧ s.cfg.wakeM.val ≤ min.toNat) →
      ∃ w, exec (.classify hour min sec) s = .next { s with result := some (.window w) } ∧
        ((w = .nightTransmit ∨ w = .nightIdle) ↔
          (hour.toNat + 24 - s.cfg.nightStartH.val) % 24 < (s.cfg.nightEndH.val + 24 - s.cfg.nightStartH.val) % 24) ∧
        (w = .nightTransmit → min.toNat < s.cfg.nightTxMin.val) ∧ (w = .nightIdle → s.cfg.nightTxMin.val ≤ min.toNat)

/-- The boot test has priority on a manual or power boot and is never selected after a scheduled wake, by CLASSIFY or by SCHED
(43_deadline_scheduler.md R188).
Rests on the spec's own decisions D22 and D27. -/
def Obligations.BootTestTieBreak : Prop :=
  ∀ (s t u : State) (hour : BitVec 5) (min sec : BitVec 6),
    exec (.classify hour min sec) s = .next t → exec (.sched hour min sec) s = .next u →
      (s.wake = false → s.uptime.toNat < s.cfg.bootTestMin.toNat * 60 →
        t.result = some (.window .bootTest) ∧ (s.attachFails = false → u.result = some (.sched .bootTest .none 0#17))) ∧
      (s.wake = true →
        t.result ≠ some (.window .bootTest) ∧ ∀ k n, u.result ≠ some (.sched .bootTest k n))

/-- SECHOUR of a legal time completes with the seconds to the top of the next hour, 1 to 3600, and writes nothing else; an
illegal field faults; its word, and that a word of its code with a 1 in bits 35:17 is refused (43_deadline_scheduler.md R196). -/
def Obligations.SechourResult : Prop :=
  (∀ (s : State) (hour : BitVec 5) (min sec : BitVec 6), s.ReadyTimed → LegalTime hour min sec →
    ∃ n : BitVec 17, exec (.sechour hour min sec) s = .next { s with result := some (.seconds n) } ∧
      n.toNat = 3600 - (60 * min.toNat + sec.toNat) ∧ 1 ≤ n.toNat ∧ n.toNat ≤ 3600) ∧
  (∀ (s : State) (hour : BitVec 5) (min sec : BitVec 6), s.pwr = .awake → ¬LegalTime hour min sec →
    ∃ f v, exec (.sechour hour min sec) s = .fault (.operandRange f v)) ∧
  (∀ (hour : BitVec 5) (min sec : BitVec 6), (encode (.sechour hour min sec)).toNat =
    0x9000000000 + hour.toNat * 2 ^ 12 + min.toNat * 2 ^ 6 + sec.toNat) ∧ RefusesHighBits 0x9 17

/-- SECDAILY of a legal time completes with the seconds to the next `WAKE_H`:`WAKE_M`:00 strictly in the future, 1 to 86400, and
writes nothing else; an illegal field faults; its word, and that a word of its code with a 1 in bits 35:17 is refused
(43_deadline_scheduler.md R198). -/
def Obligations.SecdailyResult : Prop :=
  (∀ (s : State) (hour : BitVec 5) (min sec : BitVec 6), s.ReadyTimed → LegalTime hour min sec →
    ∃ n : BitVec 17, exec (.secdaily hour min sec) s = .next { s with result := some (.seconds n) } ∧
      (n.toNat =
        if 3600 * s.cfg.wakeH.val + 60 * s.cfg.wakeM.val ≤ 3600 * hour.toNat + 60 * min.toNat + sec.toNat
        then 3600 * s.cfg.wakeH.val + 60 * s.cfg.wakeM.val + 86400 - (3600 * hour.toNat + 60 * min.toNat + sec.toNat)
        else 3600 * s.cfg.wakeH.val + 60 * s.cfg.wakeM.val - (3600 * hour.toNat + 60 * min.toNat + sec.toNat)) ∧
      1 ≤ n.toNat ∧ n.toNat ≤ 86400) ∧
  (∀ (s : State) (hour : BitVec 5) (min sec : BitVec 6), s.pwr = .awake → ¬LegalTime hour min sec →
    ∃ f v, exec (.secdaily hour min sec) s = .fault (.operandRange f v)) ∧
  (∀ (hour : BitVec 5) (min sec : BitVec 6), (encode (.secdaily hour min sec)).toNat =
    0xA000000000 + hour.toNat * 2 ^ 12 + min.toNat * 2 ^ 6 + sec.toNat) ∧ RefusesHighBits 0xA 17

/-- The rollover rule (43_deadline_scheduler.md R197): a target at or before now is no error; both durations are instances of
`until`, and each is the one number from 1 to its period that leads from now to the target around the clock. -/
def Obligations.RolloverRule : Prop :=
  ∀ (s : State) (hour : BitVec 5) (min sec : BitVec 6), s.ReadyTimed → LegalTime hour min sec →
      ∃ m n : BitVec 17, exec (.sechour hour min sec) s = .next { s with result := some (.seconds m) } ∧
        exec (.secdaily hour min sec) s = .next { s with result := some (.seconds n) } ∧
        m.toNat = untilNext (60 * min.toNat + sec.toNat) 0 3600 ∧
        n.toNat = untilNext (3600 * hour.toNat + 60 * min.toNat + sec.toNat)
          (3600 * s.cfg.wakeH.val + 60 * s.cfg.wakeM.val) 86400 ∧
        (∀ d, 1 ≤ d → d ≤ 3600 → ((60 * min.toNat + sec.toNat + d) % 3600 = 0 ↔ d = m.toNat)) ∧
        (∀ d, 1 ≤ d → d ≤ 86400 →
          ((3600 * hour.toNat + 60 * min.toNat + sec.toNat + d) % 86400 =
            3600 * s.cfg.wakeH.val + 60 * s.cfg.wakeM.val ↔ d = n.toNat))

/-- SCHED is its parts: it completes on every legal time, with the window CLASSIFY gives; in a transmitting window it ends as
MODSTART does; in a window that sleeps until the hour it ends as MODSTOP and then SLEEPCP of SECHOUR's result do; in the
daytime as MODSTOP and then SLEEPDEEP of SECDAILY's result do; its own result is the window, the kind and the seconds
(43_deadline_scheduler.md R200, R201).
Rests on the spec's own decision D27. -/
def Obligations.SchedIsItsParts : Prop :=
  ∀ (s : State) (hour : BitVec 5) (min sec : BitVec 6), s.ReadyTimed → LegalTime hour min sec →
    ∃ w t, exec (.classify hour min sec) s = .next { s with result := some (.window w) } ∧
      exec (.sched hour min sec) s = .next t ∧
      (w = .bootTest ∨ w = .nightTransmit →
        ∃ u, exec .modstart s = .next u ∧ { t with result := none } = u ∧
          (s.run = true ∨ s.ports.pwmAttachOk = true → t.result = some (.sched w .none 0#17))) ∧
      (w = .preMidnightHold ∨ w = .nightIdle →
        ∃ n u, exec (.sechour hour min sec) s = .next { s with result := some (.seconds n) } ∧
          execAll [.modstop, .sleepcp n] s = .next u ∧ { t with result := none } = u ∧
          t.result = some (.sched w .cp n) ∧ t.pwr = .sleepCp) ∧
      (w = .daytimeSuspend →
        ∃ n u, exec (.secdaily hour min sec) s = .next { s with result := some (.seconds n) } ∧
          execAll [.modstop, .sleepdeep n] s = .next u ∧ { t with result := none } = u ∧
          t.result = some (.sched w .deep n) ∧ t.pwr = .sleepDeep)

/-! ### Sleep -/

/-- SLEEPCP on a stopped modulator completes: a no-op for 0, else the wake timer is armed and the device halts; nothing else
changes (44_sleep_interface.md R221).
Rests on the spec's own decisions D28 and D29. -/
def Obligations.SleepcpHalts : Prop :=
  ∀ (s : State) (secs : BitVec 17), s.pwr = .awake → s.run = false → secs.toNat ≤ 86400 →
    (secs.toNat = 0 → exec (.sleepcp secs) s = .next { s with result := none }) ∧
    (1 ≤ secs.toNat →
      exec (.sleepcp secs) s = .next { s with pwr := .sleepCp, wakeTimer := some secs, result := none })

/-- A clock-preserving sleep ends at a wake event of either source with every other state element of the core as before it; the
uptime port may have advanced by any amount (44_sleep_interface.md R221, R222, R223; the disarmed timer is log entry 8).
Rests on the spec's own decisions D28 and D34. -/
def Obligations.SleepcpKeepsState : Prop :=
  ∀ (s t : State) (secs : BitVec 17) (n : Nat) (p : Ports) (src : WakeSource) (rest : List Input),
    1 ≤ secs.toNat → exec (.sleepcp secs) s = .next t → s.nextInput = some (⟨n, p, .wake src⟩, rest) →
      step t = .next { s with wakeTimer := none, uptime := advanceUptime s.uptime n, ports := p, result := none,
                              schedule := rest }

/-- SLEEPDEEP of a legal duration on a stopped modulator completes: the wake timer is armed and the device halts; nothing else
changes (44_sleep_interface.md R225).
Rests on the spec's own decision D29. -/
def Obligations.SleepdeepHalts : Prop :=
  ∀ (s : State) (secs : BitVec 17), s.pwr = .awake → s.run = false → 1 ≤ secs.toNat → secs.toNat ≤ 86400 →
    exec (.sleepdeep secs) s = .next { s with pwr := .sleepDeep, wakeTimer := some secs, result := none }

/-- A deep suspension ends only in a reset: with WAKE = 1 when the wake timer fires, with WAKE = 0 at a power-on or manual
reset; the external wake source does not end it (44_sleep_interface.md R225, R226).
Rests on the spec's own decision D33. -/
def Obligations.SleepdeepEndsInReset : Prop :=
  ∀ (s : State) (inp : Input) (rest : List Input), s.pwr = .sleepDeep → s.nextInput = some (inp, rest) →
    (inp.event = .wake .timer → ∃ t, step s = .next t ∧ IsResetOf s t true ∧ t.resetCause = .deepWake) ∧
    (inp.event = .wake .external → ∃ t, step s = .next t ∧ t.pwr = .sleepDeep ∧ t.wakeTimer = s.wakeTimer) ∧
    (inp.event = .powerOn ∨ inp.event = .manualReset → ∃ t, step s = .next t ∧ IsResetOf s t false) ∧
    (∀ t, step s = .next t → t.pwr = .awake → inp.event ∈ [Event.wake .timer, .powerOn, .manualReset])

/-! ### Reset and whole-machine rules -/

/-- A power-on or a manual reset may come in any state and leaves the reset values, WAKE = 0, the configuration and what the
environment will do
(10_state.md R39, 70_reset_and_hazards.md R280). The values the spec gives; the others are log entries 2, 3, 4 and 8.
Rests on the spec's own decisions D19 and D32 to D34. -/
def Obligations.ResetFromAnyState : Prop :=
  (∀ (s : State) (inp : Input) (rest : List Input),
    s.nextInput = some (inp, rest) → inp.event = .powerOn ∨ inp.event = .manualReset →
      ∃ t, step s = .next t ∧ IsResetOf s t false ∧ t.schedule = rest ∧ t.cycle = s.cycle) ∧
  IsResetOf State.reset State.reset false

/-- The invariant of the core holds right after reset (10_state.md R40).
Rests on the spec's own decision D32. -/
def Obligations.ResetMeetsInvariant : Prop := State.reset.Inv

/-- Every step keeps the invariant of the core: the indicator mirrors the carrier, a stopped modulator is silent, the counter is
at most 10, a halted device is stopped; and, of the model's own fields, the wake timer is armed exactly in a halt and in range,
and WAKE is the latched reset cause (10_state.md R40, R26; log entry 8).
Rests on the spec's own decisions D17, D23, D29 and D32. -/
def Obligations.StepKeepsInvariant : Prop := ∀ s t : State, s.Inv → step s = .next t → t.Inv

/-- The invariants of 10_state.md R40 in every state reachable from reset, for every configuration, every schedule and cycle
of the environment and every number of steps. Clause (e) is the type of SYM: unwritten or one of the three symbols.
Rests on the spec's own decisions D17, D19, D23, D29 and D32. -/
def Obligations.ReachableStatesMeetR40 : Prop :=
  ∀ (c : ScheduleConfig) (sched cycle : List Input) (k : Nat) (s : State),
    core.run k { State.reset with cfg := c, schedule := sched, cycle := cycle } = .next s →
      s.led = s.carrier ∧ (s.run = false → s.carrier = .off) ∧ s.sub.toNat ≤ 10 ∧ (s.pwr ≠ .awake → s.run = false) ∧
      (s.sym = none ∨ s.sym = some .zero ∨ s.sym = some .one ∨ s.sym = some .marker)

/-- No step of any kind, reset and restart included, changes the configuration (10_state.md R32, 70_reset_and_hazards.md
R286). -/
def Obligations.ConfigurationIsConstant : Prop := ∀ s t : State, step s = .next t → t.cfg = s.cfg

/-- Who writes what (70_reset_and_hazards.md R297, 10_state.md R20): but for the restart of a MODSTART or SCHED whose PWM attach
fails, an operation changes SYM only as SYMWR, SUB only as TICK, MODSTART or SCHED, the outputs only as TICK, MODSTOP or SCHED, RUN only as MODSTART, MODSTOP or
SCHED, PWR and the wake timer only as SLEEPCP, SLEEPDEEP or SCHED, USEC only as MODSTART or SCHED, and WAKE, the reset cause, U,
the configuration, the other ports, the schedule and the cycle never.
Rests on the spec's own decisions D17, D27 and D32. -/
def Obligations.OperationFrames : Prop :=
  ∀ (i : Instr) (s t : State), exec i s = .next t →
    (i.op ∈ [Op.modstart, .sched] ∧ s.run = false ∧ s.ports.pwmAttachOk = false ∧ IsResetOf s t false ∧
      t.resetCause = .restart) ∨
    ((t.sym ≠ s.sym → i.op = .symwr) ∧
    (t.sub ≠ s.sub → i.op ∈ [Op.tick, .modstart, .sched]) ∧
    (t.carrier ≠ s.carrier → i.op ∈ [Op.tick, .modstop, .sched]) ∧
    (t.led ≠ s.led → i.op ∈ [Op.tick, .modstop, .sched]) ∧
    (t.run ≠ s.run → i.op ∈ [Op.modstart, .modstop, .sched]) ∧
    (t.pwr ≠ s.pwr → i.op ∈ [Op.sleepcp, .sleepdeep, .sched]) ∧
    (t.wakeTimer ≠ s.wakeTimer → i.op ∈ [Op.sleepcp, .sleepdeep, .sched]) ∧
    (t.ports.usec ≠ s.ports.usec → i.op ∈ [Op.modstart, .sched]) ∧
    t.ports.pwmAttachOk = s.ports.pwmAttachOk ∧ t.ports.timeTrusted = s.ports.timeTrusted ∧
    t.wake = s.wake ∧ t.resetCause = s.resetCause ∧ t.uptime = s.uptime ∧ t.cfg = s.cfg ∧ t.schedule = s.schedule ∧
    t.cycle = s.cycle)

/-- The carrier goes from OFF to ON at an enabled tick and nowhere else: no operation but TICK, and no step but the timer's
tick, be it a command, a wake event or a reset, raises it (42_carrier_modulator.md R160).
Rests on the spec's own decisions D18 and D23. -/
def Obligations.OnlyTickRaisesCarrier : Prop :=
  (∀ (i : Instr) (s t : State), exec i s = .next t → s.carrier = .off → t.carrier = .on →
    i = .tick ∧ s.run = true ∧ s.pwr = .awake) ∧
  (∀ s t : State, step s = .next t → s.carrier = .off → t.carrier = .on →
    s.run = true ∧ s.pwr = .awake ∧ ∃ inp rest, s.nextInput = some (inp, rest) ∧ inp.event = .tick)

/-- No carrier output persists into a halt: after a step that leaves the device halted the modulator is stopped, the carrier OFF
and the PWM duty zero (60_exceptions.md R272, 20_memory.md R64).
Rests on the spec's own decisions D29 and D32. -/
def Obligations.NoCarrierIntoSleep : Prop :=
  ∀ s t : State, s.Inv → step s = .next t → t.pwr ≠ .awake → t.run = false ∧ t.carrier = .off ∧ t.pwmDuty = 0

/-- WAKE changes only at a reset (10_state.md R26).
Rests on the spec's own decision D33. -/
def Obligations.WakeFlagLatchedUntilReset : Prop :=
  ∀ s t : State, step s = .next t → t.wake ≠ s.wake → IsResetOf s t t.wake ∧ t.wake = wakeCause t.resetCause

/-- The uptime port never decreases but at a reset, where it is 0: it advances by the seconds that pass, up to the largest value
of its 32 bits; and every value from the present one on can come next (10_state.md R27, 44_sleep_interface.md R223; that it
stays at the largest value is log entry 7).
Rests on the spec's own decisions D22 and D34. -/
def Obligations.UptimeGrowsUntilReset : Prop :=
  (∀ (s t : State) (inp : Input) (rest : List Input), s.nextInput = some (inp, rest) → step s = .next t →
    (t.uptime.toNat = min (s.uptime.toNat + inp.elapsed) (2 ^ 32 - 1) ∧ s.uptime.toNat ≤ t.uptime.toNat) ∨
    IsResetOf s t t.wake) ∧
  (∀ u v : BitVec 32, u.toNat ≤ v.toNat → ∃ n, advanceUptime u n = v)

/-- The restart loop is a run of the model (60_exceptions.md R241): from a manual boot with a boot test, when the environment
issues SCHED for ever and the PWM never attaches, every step, however many have gone before, is a restart, and the carrier is
never raised. The cycle is the model's (log entry 1).
Rests on the spec's own decisions D33 and D39. -/
def Obligations.RestartLoopIsARun : Prop :=
  ∀ (c : ScheduleConfig) (hour : BitVec 5) (min sec : BitVec 6) (n : Nat) (p : Ports), LegalTime hour min sec →
    n < c.bootTestMin.toNat * 60 → p.timeTrusted = true → p.pwmAttachOk = false →
    ∀ k, ∃ s, core.run (k + 1)
        { State.reset with cfg := c, cycle := [⟨n, p, .command (encode (.sched hour min sec))⟩] } = .next s ∧
      IsResetOf { State.reset with cfg := c } s false ∧ s.resetCause = .restart
end

