-- ==== Sys2Proof/Laws/Decode.lean ====
section
/-! SUPPORT. The fields and the fixed bits of a word as numbers, and when the decoder accepts a word. -/

namespace Sys2Proof

/-- A field as a number: `W[lo+len-1:lo]`. -/
theorem fieldBits_toNat (w : Word) (lo len : Nat) : (fieldBits w lo len).toNat = w.toNat / 2 ^ lo % 2 ^ len := by
  simp [fieldBits, BitVec.extractLsb'_toNat, Nat.shiftRight_eq_div_pow]

/-- The operation code of a word as a number. -/
theorem opField_toNat (w : Word) : (fieldBits w 36 4).toNat = w.toNat / 2 ^ 36 := by
  have := w.isLt
  rw [fieldBits_toNat]; omega

/-- The number of operand bits a format leaves open. -/
def openBits : Format → Nat
  | .n => 0
  | .v => 12
  | .s => 2
  | .t => 36
  | .hms => 17
  | .d => 17

/-- A mask covers exactly the bits above the open ones (30_encoding.md R73). -/
theorem mask_eq (f : Format) : f.mask = BitVec.allOnes 40 <<< openBits f := by cases f <;> decide

theorem and_highMask_toNat (w : Word) (k : Nat) :
    (w &&& (BitVec.allOnes 40 <<< k)).toNat = w.toNat / 2 ^ k * 2 ^ k := by
  have h : w &&& (BitVec.allOnes 40 <<< k) = (w >>> k) <<< k := by
    apply BitVec.eq_of_getLsbD_eq
    intro j hj
    by_cases hk : j < k
    · simp [hk]
    · have hb : k + (j - k) = j := by omega
      have hlt : j - k < 40 := by omega
      simp only [BitVec.getLsbD_and, BitVec.getLsbD_shiftLeft, BitVec.getLsbD_ushiftRight, BitVec.getLsbD_allOnes, hb]
      simp [hk, hj, hlt]
  rw [h, BitVec.toNat_shiftLeft, BitVec.toNat_ushiftRight, Nat.shiftLeft_eq, Nat.shiftRight_eq_div_pow]
  exact Nat.mod_eq_of_lt (lt_of_le_of_lt (Nat.div_mul_le_self _ _) w.isLt)

/-- The fixed bits of a word are an operation's, said with numbers (30_encoding.md R73). -/
theorem and_mask_eq_matchWord (w : Word) (o : Op) :
    w &&& o.format.mask = o.matchWord ↔
      w.toNat / 2 ^ openBits o.format * 2 ^ openBits o.format = o.code.toNat * 2 ^ 36 := by
  have hm : o.matchWord.toNat = o.code.toNat * 2 ^ 36 := by cases o <;> decide
  rw [← BitVec.toNat_inj, mask_eq, and_highMask_toNat, hm]

@[simp] theorem Op.ofCode_code (o : Op) : Op.ofCode o.code = some o := by cases o <;> decide

theorem Op.code_of_ofCode {c : BitVec 4} {o : Op} (h : Op.ofCode c = some o) : o.code = c := by
  simpa [Op.ofCode] using List.find?_some h

@[simp] theorem Op.assemble_op (o : Op) (w : Word) : (o.assemble w).op = o := by cases o <;> rfl

/-- The decoder accepts a word whose code is the operation's and whose fixed bits match. -/
theorem decode_of_match {w : Word} {o : Op} (h : Op.ofCode (fieldBits w 36 4) = some o)
    (hm : w &&& o.format.mask = o.matchWord) : decode w = .ok (o.assemble w) := by
  unfold decode; rw [h]; simp [hm]

/-- What the decoder can accept. -/
theorem decode_ok {w : Word} {i : Instr} (h : decode w = .ok i) :
    ∃ o, Op.ofCode (fieldBits w 36 4) = some o ∧ w &&& o.format.mask = o.matchWord ∧ i = o.assemble w := by
  unfold decode at h
  split at h
  · cases h
  · split at h
    · exact ⟨_, ‹_›, ‹_›, by cases h; rfl⟩
    · cases h

/-- The number of an operation's word. -/
theorem wordOf_toNat (o : Op) {n : Nat} (h : n < 2 ^ 36) : (wordOf o n).toNat = o.code.toNat * 2 ^ 36 + n := by
  have := o.code.isLt
  simp only [wordOf, BitVec.toNat_ofNat, Nat.shiftLeft_eq]; omega

end Sys2Proof
end

