-- ==== Sys2Proof/Laws/State.lean ====
section
/-! SUPPORT. One lemma per field and update of the state, so that no proof unfolds a record update. -/

namespace Sys2Proof.Machine

/-! ### The result -/

@[simp] theorem State.withResult_sym (s : State) (r : Option Result) : (s.withResult r).sym = s.sym := rfl
@[simp] theorem State.withResult_sub (s : State) (r : Option Result) : (s.withResult r).sub = s.sub := rfl
@[simp] theorem State.withResult_run (s : State) (r : Option Result) : (s.withResult r).run = s.run := rfl
@[simp] theorem State.withResult_carrier (s : State) (r : Option Result) : (s.withResult r).carrier = s.carrier := rfl
@[simp] theorem State.withResult_led (s : State) (r : Option Result) : (s.withResult r).led = s.led := rfl
@[simp] theorem State.withResult_wake (s : State) (r : Option Result) : (s.withResult r).wake = s.wake := rfl
@[simp] theorem State.withResult_pwr (s : State) (r : Option Result) : (s.withResult r).pwr = s.pwr := rfl
@[simp] theorem State.withResult_cfg (s : State) (r : Option Result) : (s.withResult r).cfg = s.cfg := rfl
@[simp] theorem State.withResult_uptime (s : State) (r : Option Result) : (s.withResult r).uptime = s.uptime := rfl
@[simp] theorem State.withResult_ports (s : State) (r : Option Result) : (s.withResult r).ports = s.ports := rfl
@[simp] theorem State.withResult_wakeTimer (s : State) (r : Option Result) : (s.withResult r).wakeTimer = s.wakeTimer := rfl
@[simp] theorem State.withResult_resetCause (s : State) (r : Option Result) : (s.withResult r).resetCause = s.resetCause := rfl
@[simp] theorem State.withResult_result (s : State) (r : Option Result) : (s.withResult r).result = r := rfl
@[simp] theorem State.withResult_schedule (s : State) (r : Option Result) : (s.withResult r).schedule = s.schedule := rfl
@[simp] theorem State.withResult_cycle (s : State) (r : Option Result) : (s.withResult r).cycle = s.cycle := rfl

/-! ### The symbol cell -/

@[simp] theorem State.writeSym_sym (s : State) (x : Symbol) : (s.writeSym x).sym = some x := rfl
@[simp] theorem State.writeSym_sub (s : State) (x : Symbol) : (s.writeSym x).sub = s.sub := rfl
@[simp] theorem State.writeSym_run (s : State) (x : Symbol) : (s.writeSym x).run = s.run := rfl
@[simp] theorem State.writeSym_carrier (s : State) (x : Symbol) : (s.writeSym x).carrier = s.carrier := rfl
@[simp] theorem State.writeSym_led (s : State) (x : Symbol) : (s.writeSym x).led = s.led := rfl
@[simp] theorem State.writeSym_wake (s : State) (x : Symbol) : (s.writeSym x).wake = s.wake := rfl
@[simp] theorem State.writeSym_pwr (s : State) (x : Symbol) : (s.writeSym x).pwr = s.pwr := rfl
@[simp] theorem State.writeSym_cfg (s : State) (x : Symbol) : (s.writeSym x).cfg = s.cfg := rfl
@[simp] theorem State.writeSym_uptime (s : State) (x : Symbol) : (s.writeSym x).uptime = s.uptime := rfl
@[simp] theorem State.writeSym_ports (s : State) (x : Symbol) : (s.writeSym x).ports = s.ports := rfl
@[simp] theorem State.writeSym_wakeTimer (s : State) (x : Symbol) : (s.writeSym x).wakeTimer = s.wakeTimer := rfl
@[simp] theorem State.writeSym_resetCause (s : State) (x : Symbol) : (s.writeSym x).resetCause = s.resetCause := rfl
@[simp] theorem State.writeSym_result (s : State) (x : Symbol) : (s.writeSym x).result = s.result := rfl
@[simp] theorem State.writeSym_schedule (s : State) (x : Symbol) : (s.writeSym x).schedule = s.schedule := rfl
@[simp] theorem State.writeSym_cycle (s : State) (x : Symbol) : (s.writeSym x).cycle = s.cycle := rfl

/-! ### The output latch -/

@[simp] theorem State.latch_sym (s : State) (l : Level) : (s.latch l).sym = s.sym := rfl
@[simp] theorem State.latch_sub (s : State) (l : Level) : (s.latch l).sub = s.sub := rfl
@[simp] theorem State.latch_run (s : State) (l : Level) : (s.latch l).run = s.run := rfl
@[simp] theorem State.latch_carrier (s : State) (l : Level) : (s.latch l).carrier = l := rfl
@[simp] theorem State.latch_led (s : State) (l : Level) : (s.latch l).led = l := rfl
@[simp] theorem State.latch_wake (s : State) (l : Level) : (s.latch l).wake = s.wake := rfl
@[simp] theorem State.latch_pwr (s : State) (l : Level) : (s.latch l).pwr = s.pwr := rfl
@[simp] theorem State.latch_cfg (s : State) (l : Level) : (s.latch l).cfg = s.cfg := rfl
@[simp] theorem State.latch_uptime (s : State) (l : Level) : (s.latch l).uptime = s.uptime := rfl
@[simp] theorem State.latch_ports (s : State) (l : Level) : (s.latch l).ports = s.ports := rfl
@[simp] theorem State.latch_wakeTimer (s : State) (l : Level) : (s.latch l).wakeTimer = s.wakeTimer := rfl
@[simp] theorem State.latch_resetCause (s : State) (l : Level) : (s.latch l).resetCause = s.resetCause := rfl
@[simp] theorem State.latch_result (s : State) (l : Level) : (s.latch l).result = s.result := rfl
@[simp] theorem State.latch_schedule (s : State) (l : Level) : (s.latch l).schedule = s.schedule := rfl
@[simp] theorem State.latch_cycle (s : State) (l : Level) : (s.latch l).cycle = s.cycle := rfl

/-! ### The subslot counter -/

@[simp] theorem State.setSub_sym (s : State) (k : BitVec 4) : (s.setSub k).sym = s.sym := rfl
@[simp] theorem State.setSub_sub (s : State) (k : BitVec 4) : (s.setSub k).sub = k := rfl
@[simp] theorem State.setSub_run (s : State) (k : BitVec 4) : (s.setSub k).run = s.run := rfl
@[simp] theorem State.setSub_carrier (s : State) (k : BitVec 4) : (s.setSub k).carrier = s.carrier := rfl
@[simp] theorem State.setSub_led (s : State) (k : BitVec 4) : (s.setSub k).led = s.led := rfl
@[simp] theorem State.setSub_wake (s : State) (k : BitVec 4) : (s.setSub k).wake = s.wake := rfl
@[simp] theorem State.setSub_pwr (s : State) (k : BitVec 4) : (s.setSub k).pwr = s.pwr := rfl
@[simp] theorem State.setSub_cfg (s : State) (k : BitVec 4) : (s.setSub k).cfg = s.cfg := rfl
@[simp] theorem State.setSub_uptime (s : State) (k : BitVec 4) : (s.setSub k).uptime = s.uptime := rfl
@[simp] theorem State.setSub_ports (s : State) (k : BitVec 4) : (s.setSub k).ports = s.ports := rfl
@[simp] theorem State.setSub_wakeTimer (s : State) (k : BitVec 4) : (s.setSub k).wakeTimer = s.wakeTimer := rfl
@[simp] theorem State.setSub_resetCause (s : State) (k : BitVec 4) : (s.setSub k).resetCause = s.resetCause := rfl
@[simp] theorem State.setSub_result (s : State) (k : BitVec 4) : (s.setSub k).result = s.result := rfl
@[simp] theorem State.setSub_schedule (s : State) (k : BitVec 4) : (s.setSub k).schedule = s.schedule := rfl
@[simp] theorem State.setSub_cycle (s : State) (k : BitVec 4) : (s.setSub k).cycle = s.cycle := rfl

/-! ### The run bit -/

@[simp] theorem State.setRun_sym (s : State) (b : Bool) : (s.setRun b).sym = s.sym := rfl
@[simp] theorem State.setRun_sub (s : State) (b : Bool) : (s.setRun b).sub = s.sub := rfl
@[simp] theorem State.setRun_run (s : State) (b : Bool) : (s.setRun b).run = b := rfl
@[simp] theorem State.setRun_carrier (s : State) (b : Bool) : (s.setRun b).carrier = s.carrier := rfl
@[simp] theorem State.setRun_led (s : State) (b : Bool) : (s.setRun b).led = s.led := rfl
@[simp] theorem State.setRun_wake (s : State) (b : Bool) : (s.setRun b).wake = s.wake := rfl
@[simp] theorem State.setRun_pwr (s : State) (b : Bool) : (s.setRun b).pwr = s.pwr := rfl
@[simp] theorem State.setRun_cfg (s : State) (b : Bool) : (s.setRun b).cfg = s.cfg := rfl
@[simp] theorem State.setRun_uptime (s : State) (b : Bool) : (s.setRun b).uptime = s.uptime := rfl
@[simp] theorem State.setRun_ports (s : State) (b : Bool) : (s.setRun b).ports = s.ports := rfl
@[simp] theorem State.setRun_wakeTimer (s : State) (b : Bool) : (s.setRun b).wakeTimer = s.wakeTimer := rfl
@[simp] theorem State.setRun_resetCause (s : State) (b : Bool) : (s.setRun b).resetCause = s.resetCause := rfl
@[simp] theorem State.setRun_result (s : State) (b : Bool) : (s.setRun b).result = s.result := rfl
@[simp] theorem State.setRun_schedule (s : State) (b : Bool) : (s.setRun b).schedule = s.schedule := rfl
@[simp] theorem State.setRun_cycle (s : State) (b : Bool) : (s.setRun b).cycle = s.cycle := rfl

/-! ### Phase alignment -/

@[simp] theorem State.aligned_sym (s : State) : (s.aligned).sym = s.sym := rfl
@[simp] theorem State.aligned_sub (s : State) : (s.aligned).sub = s.sub := rfl
@[simp] theorem State.aligned_run (s : State) : (s.aligned).run = s.run := rfl
@[simp] theorem State.aligned_carrier (s : State) : (s.aligned).carrier = s.carrier := rfl
@[simp] theorem State.aligned_led (s : State) : (s.aligned).led = s.led := rfl
@[simp] theorem State.aligned_wake (s : State) : (s.aligned).wake = s.wake := rfl
@[simp] theorem State.aligned_pwr (s : State) : (s.aligned).pwr = s.pwr := rfl
@[simp] theorem State.aligned_cfg (s : State) : (s.aligned).cfg = s.cfg := rfl
@[simp] theorem State.aligned_uptime (s : State) : (s.aligned).uptime = s.uptime := rfl
@[simp] theorem State.aligned_ports (s : State) : (s.aligned).ports = { s.ports with usec := 0 } := rfl
@[simp] theorem State.aligned_wakeTimer (s : State) : (s.aligned).wakeTimer = s.wakeTimer := rfl
@[simp] theorem State.aligned_resetCause (s : State) : (s.aligned).resetCause = s.resetCause := rfl
@[simp] theorem State.aligned_result (s : State) : (s.aligned).result = s.result := rfl
@[simp] theorem State.aligned_schedule (s : State) : (s.aligned).schedule = s.schedule := rfl
@[simp] theorem State.aligned_cycle (s : State) : (s.aligned).cycle = s.cycle := rfl

/-! ### Entering a halt -/

@[simp] theorem State.enterSleep_sym (s : State) (p : Power) (n : BitVec 17) : (s.enterSleep p n).sym = s.sym := rfl
@[simp] theorem State.enterSleep_sub (s : State) (p : Power) (n : BitVec 17) : (s.enterSleep p n).sub = s.sub := rfl
@[simp] theorem State.enterSleep_run (s : State) (p : Power) (n : BitVec 17) : (s.enterSleep p n).run = s.run := rfl
@[simp] theorem State.enterSleep_carrier (s : State) (p : Power) (n : BitVec 17) : (s.enterSleep p n).carrier = s.carrier := rfl
@[simp] theorem State.enterSleep_led (s : State) (p : Power) (n : BitVec 17) : (s.enterSleep p n).led = s.led := rfl
@[simp] theorem State.enterSleep_wake (s : State) (p : Power) (n : BitVec 17) : (s.enterSleep p n).wake = s.wake := rfl
@[simp] theorem State.enterSleep_pwr (s : State) (p : Power) (n : BitVec 17) : (s.enterSleep p n).pwr = p := rfl
@[simp] theorem State.enterSleep_cfg (s : State) (p : Power) (n : BitVec 17) : (s.enterSleep p n).cfg = s.cfg := rfl
@[simp] theorem State.enterSleep_uptime (s : State) (p : Power) (n : BitVec 17) : (s.enterSleep p n).uptime = s.uptime := rfl
@[simp] theorem State.enterSleep_ports (s : State) (p : Power) (n : BitVec 17) : (s.enterSleep p n).ports = s.ports := rfl
@[simp] theorem State.enterSleep_wakeTimer (s : State) (p : Power) (n : BitVec 17) : (s.enterSleep p n).wakeTimer = some n := rfl
@[simp] theorem State.enterSleep_resetCause (s : State) (p : Power) (n : BitVec 17) : (s.enterSleep p n).resetCause = s.resetCause := rfl
@[simp] theorem State.enterSleep_result (s : State) (p : Power) (n : BitVec 17) : (s.enterSleep p n).result = s.result := rfl
@[simp] theorem State.enterSleep_schedule (s : State) (p : Power) (n : BitVec 17) : (s.enterSleep p n).schedule = s.schedule := rfl
@[simp] theorem State.enterSleep_cycle (s : State) (p : Power) (n : BitVec 17) : (s.enterSleep p n).cycle = s.cycle := rfl

/-! ### Leaving a clock-preserving sleep -/

@[simp] theorem State.leaveSleepCp_sym (s : State) : (s.leaveSleepCp).sym = s.sym := rfl
@[simp] theorem State.leaveSleepCp_sub (s : State) : (s.leaveSleepCp).sub = s.sub := rfl
@[simp] theorem State.leaveSleepCp_run (s : State) : (s.leaveSleepCp).run = s.run := rfl
@[simp] theorem State.leaveSleepCp_carrier (s : State) : (s.leaveSleepCp).carrier = s.carrier := rfl
@[simp] theorem State.leaveSleepCp_led (s : State) : (s.leaveSleepCp).led = s.led := rfl
@[simp] theorem State.leaveSleepCp_wake (s : State) : (s.leaveSleepCp).wake = s.wake := rfl
@[simp] theorem State.leaveSleepCp_pwr (s : State) : (s.leaveSleepCp).pwr = .awake := rfl
@[simp] theorem State.leaveSleepCp_cfg (s : State) : (s.leaveSleepCp).cfg = s.cfg := rfl
@[simp] theorem State.leaveSleepCp_uptime (s : State) : (s.leaveSleepCp).uptime = s.uptime := rfl
@[simp] theorem State.leaveSleepCp_ports (s : State) : (s.leaveSleepCp).ports = s.ports := rfl
@[simp] theorem State.leaveSleepCp_wakeTimer (s : State) : (s.leaveSleepCp).wakeTimer = none := rfl
@[simp] theorem State.leaveSleepCp_resetCause (s : State) : (s.leaveSleepCp).resetCause = s.resetCause := rfl
@[simp] theorem State.leaveSleepCp_result (s : State) : (s.leaveSleepCp).result = none := rfl
@[simp] theorem State.leaveSleepCp_schedule (s : State) : (s.leaveSleepCp).schedule = s.schedule := rfl
@[simp] theorem State.leaveSleepCp_cycle (s : State) : (s.leaveSleepCp).cycle = s.cycle := rfl

/-! ### Taking an entry of the schedule -/

@[simp] theorem State.sample_sym (s : State) (inp : Input) (rest : List Input) : (s.sample inp rest).sym = s.sym := rfl
@[simp] theorem State.sample_sub (s : State) (inp : Input) (rest : List Input) : (s.sample inp rest).sub = s.sub := rfl
@[simp] theorem State.sample_run (s : State) (inp : Input) (rest : List Input) : (s.sample inp rest).run = s.run := rfl
@[simp] theorem State.sample_carrier (s : State) (inp : Input) (rest : List Input) : (s.sample inp rest).carrier = s.carrier := rfl
@[simp] theorem State.sample_led (s : State) (inp : Input) (rest : List Input) : (s.sample inp rest).led = s.led := rfl
@[simp] theorem State.sample_wake (s : State) (inp : Input) (rest : List Input) : (s.sample inp rest).wake = s.wake := rfl
@[simp] theorem State.sample_pwr (s : State) (inp : Input) (rest : List Input) : (s.sample inp rest).pwr = s.pwr := rfl
@[simp] theorem State.sample_cfg (s : State) (inp : Input) (rest : List Input) : (s.sample inp rest).cfg = s.cfg := rfl
@[simp] theorem State.sample_uptime (s : State) (inp : Input) (rest : List Input) : (s.sample inp rest).uptime = advanceUptime s.uptime inp.elapsed := rfl
@[simp] theorem State.sample_ports (s : State) (inp : Input) (rest : List Input) : (s.sample inp rest).ports = inp.ports := rfl
@[simp] theorem State.sample_wakeTimer (s : State) (inp : Input) (rest : List Input) : (s.sample inp rest).wakeTimer = s.wakeTimer := rfl
@[simp] theorem State.sample_resetCause (s : State) (inp : Input) (rest : List Input) : (s.sample inp rest).resetCause = s.resetCause := rfl
@[simp] theorem State.sample_result (s : State) (inp : Input) (rest : List Input) : (s.sample inp rest).result = s.result := rfl
@[simp] theorem State.sample_schedule (s : State) (inp : Input) (rest : List Input) : (s.sample inp rest).schedule = rest := rfl
@[simp] theorem State.sample_cycle (s : State) (inp : Input) (rest : List Input) : (s.sample inp rest).cycle = s.cycle := rfl

/-! ### A reset -/

@[simp] theorem State.resetBy_sym (s : State) (c : ResetCause) : (s.resetBy c).sym = none := rfl
@[simp] theorem State.resetBy_sub (s : State) (c : ResetCause) : (s.resetBy c).sub = 0#4 := rfl
@[simp] theorem State.resetBy_run (s : State) (c : ResetCause) : (s.resetBy c).run = false := rfl
@[simp] theorem State.resetBy_carrier (s : State) (c : ResetCause) : (s.resetBy c).carrier = .off := rfl
@[simp] theorem State.resetBy_led (s : State) (c : ResetCause) : (s.resetBy c).led = .off := rfl
@[simp] theorem State.resetBy_wake (s : State) (c : ResetCause) : (s.resetBy c).wake = wakeCause c := rfl
@[simp] theorem State.resetBy_pwr (s : State) (c : ResetCause) : (s.resetBy c).pwr = .awake := rfl
@[simp] theorem State.resetBy_cfg (s : State) (c : ResetCause) : (s.resetBy c).cfg = s.cfg := rfl
@[simp] theorem State.resetBy_uptime (s : State) (c : ResetCause) : (s.resetBy c).uptime = 0#32 := rfl
@[simp] theorem State.resetBy_ports (s : State) (c : ResetCause) : (s.resetBy c).ports = { s.ports with timeTrusted := false } := rfl
@[simp] theorem State.resetBy_wakeTimer (s : State) (c : ResetCause) : (s.resetBy c).wakeTimer = none := rfl
@[simp] theorem State.resetBy_resetCause (s : State) (c : ResetCause) : (s.resetBy c).resetCause = c := rfl
@[simp] theorem State.resetBy_result (s : State) (c : ResetCause) : (s.resetBy c).result = none := rfl
@[simp] theorem State.resetBy_schedule (s : State) (c : ResetCause) : (s.resetBy c).schedule = s.schedule := rfl
@[simp] theorem State.resetBy_cycle (s : State) (c : ResetCause) : (s.resetBy c).cycle = s.cycle := rfl

end Sys2Proof.Machine
end

