-- ==== Sys2Proof/Laws/Operands.lean ====
section
/-! SUPPORT. What the checks before an operation's effect can do. -/

namespace Sys2Proof.Machine

theorem operandLegal_iff (o : Operand) : operandLegal o = true ↔ o.lo ≤ o.value ∧ o.value ≤ o.hi := by
  simp [operandLegal]

/-- No field is reported exactly when all are in range. -/
theorem firstIllegal_eq_none (i : Instr) :
    firstIllegal i = none ↔ ∀ o ∈ operandsOf i, o.lo ≤ o.value ∧ o.value ≤ o.hi := by
  simp [firstIllegal, List.find?_eq_none, operandLegal_iff]

/-- A reported field is a field of the operation and is out of range. -/
theorem firstIllegal_eq_some {i : Instr} {o : Operand} (h : firstIllegal i = some o) :
    o ∈ operandsOf i ∧ ¬(o.lo ≤ o.value ∧ o.value ≤ o.hi) := by
  refine ⟨List.mem_of_find?_eq_some h, ?_⟩
  have := List.find?_some h
  rw [← operandLegal_iff]
  simpa using this

theorem firstIllegal_hms (hour : BitVec 5) (min sec : BitVec 6) :
    (hmsOperands hour min sec).find? (fun o => !operandLegal o) = none ↔
      hour.toNat < 24 ∧ min.toNat < 60 ∧ sec.toNat < 60 := by
  simp [hmsOperands, List.find?_eq_none, operandLegal, Nat.lt_succ_iff]

/-- An operation of the control loop on an awake device with legal fields is its body. -/
theorem controlOp_legal {i : Instr} {s : State} {body : Out} (hp : s.pwr = .awake) (hi : firstIllegal i = none) :
    controlOp i s body = body := by
  simp [controlOp, hp, hi]

theorem controlOp_illegal {i : Instr} {s : State} {body : Out} {o : Operand} (hp : s.pwr = .awake)
    (hi : firstIllegal i = some o) : controlOp i s body = .fault (.operandRange o.field o.value) := by
  simp [controlOp, hp, hi]

theorem controlOp_asleep {i : Instr} {s : State} {body : Out} (hp : s.pwr ≠ .awake) :
    controlOp i s body = .refused .notAwake := by
  simp [controlOp, hp]

/-- If an operation of the control loop answers a next state, its checks have passed and its body gave it. -/
theorem controlOp_next {i : Instr} {s t : State} {body : Out} (h : controlOp i s body = .next t) :
    s.pwr = .awake ∧ firstIllegal i = none ∧ body = .next t := by
  unfold controlOp at h
  split at h
  · split at h
    · cases h
    · exact ⟨‹_›, ‹_›, h⟩
  · cases h

theorem timedOp_legal {i : Instr} {s : State} {body : Out} (hp : s.pwr = .awake) (hi : firstIllegal i = none)
    (ht : s.ports.timeTrusted = true) : timedOp i s body = body := by
  simp [timedOp, controlOp_legal hp hi, ht]

theorem timedOp_untrusted {i : Instr} {s : State} {body : Out} (hp : s.pwr = .awake) (hi : firstIllegal i = none)
    (ht : s.ports.timeTrusted = false) : timedOp i s body = .fault (.timeUntrusted i.op) := by
  simp [timedOp, controlOp_legal hp hi, ht]

theorem timedOp_next {i : Instr} {s t : State} {body : Out} (h : timedOp i s body = .next t) :
    s.pwr = .awake ∧ firstIllegal i = none ∧ s.ports.timeTrusted = true ∧ body = .next t := by
  obtain ⟨hp, hi, hb⟩ := controlOp_next h
  split at hb
  · exact ⟨hp, hi, ‹_›, hb⟩
  · cases hb

theorem sleepOp_legal {i : Instr} {s : State} {body : Out} (hp : s.pwr = .awake) (hi : firstIllegal i = none)
    (hr : s.run = false) : sleepOp i s body = body := by
  simp [sleepOp, controlOp_legal hp hi, hr]

theorem sleepOp_running {i : Instr} {s : State} {body : Out} (hp : s.pwr = .awake) (hi : firstIllegal i = none)
    (hr : s.run = true) : sleepOp i s body = .fault .sleepWhileRunning := by
  simp [sleepOp, controlOp_legal hp hi, hr]

theorem sleepOp_next {i : Instr} {s t : State} {body : Out} (h : sleepOp i s body = .next t) :
    s.pwr = .awake ∧ firstIllegal i = none ∧ s.run = false ∧ body = .next t := by
  obtain ⟨hp, hi, hb⟩ := controlOp_next h
  split at hb
  · cases hb
  · exact ⟨hp, hi, Bool.eq_false_iff.mpr ‹_›, hb⟩

end Sys2Proof.Machine
end

