-- ==== Sys2Proof/Laws/Ops.lean ====
section
/-! SUPPORT. What each shared operation over the state can do, and the arithmetic of the durations. -/

namespace Sys2Proof.Machine

/-! ### Starting and stopping -/

theorem startModulator_running {s : State} (h : s.run = true) : s.startModulator = s := by
  simp [State.startModulator, h]

theorem startModulator_starts {s : State} (h : s.run = false) (hp : s.ports.pwmAttachOk = true) :
    s.startModulator = (s.aligned.setSub 0#4).setRun true := by
  simp [State.startModulator, State.attachFails, h, hp]

theorem startModulator_restarts {s : State} (h : s.run = false) (hp : s.ports.pwmAttachOk = false) :
    s.startModulator = s.aligned.resetBy .restart := by
  simp [State.startModulator, State.attachFails, h, hp]

/-- Starting leaves the modulator running, unless the device restarted. -/
theorem startModulator_cases (s : State) :
    (s.run = true ∧ s.startModulator = s) ∨
    (s.run = false ∧ s.attachFails = false ∧ s.startModulator = (s.aligned.setSub 0#4).setRun true) ∨
    (s.run = false ∧ s.attachFails = true ∧ s.startModulator = s.aligned.resetBy .restart) := by
  cases hr : s.run <;> cases hp : s.ports.pwmAttachOk <;> simp [State.startModulator, State.attachFails, hr, hp]

theorem stopModulator_running {s : State} (h : s.run = true) : s.stopModulator = (s.setRun false).latch .off := by
  simp [State.stopModulator, h]

theorem stopModulator_stopped {s : State} (h : s.run = false) : s.stopModulator = s := by
  simp [State.stopModulator, h]

@[simp] theorem stopModulator_run (s : State) : s.stopModulator.run = false := by
  cases h : s.run <;> simp [State.stopModulator, h]

@[simp] theorem stopModulator_idempotent (s : State) : s.stopModulator.stopModulator = s.stopModulator :=
  stopModulator_stopped (stopModulator_run s)

@[simp] theorem stopModulator_sym (s : State) : s.stopModulator.sym = s.sym := by
  unfold State.stopModulator; split <;> rfl

@[simp] theorem stopModulator_sub (s : State) : s.stopModulator.sub = s.sub := by
  unfold State.stopModulator; split <;> rfl

@[simp] theorem stopModulator_cfg (s : State) : s.stopModulator.cfg = s.cfg := by
  unfold State.stopModulator; split <;> rfl

@[simp] theorem stopModulator_pwr (s : State) : s.stopModulator.pwr = s.pwr := by
  unfold State.stopModulator; split <;> rfl

@[simp] theorem stopModulator_wake (s : State) : s.stopModulator.wake = s.wake := by
  unfold State.stopModulator; split <;> rfl

@[simp] theorem stopModulator_uptime (s : State) : s.stopModulator.uptime = s.uptime := by
  unfold State.stopModulator; split <;> rfl

@[simp] theorem stopModulator_ports (s : State) : s.stopModulator.ports = s.ports := by
  unfold State.stopModulator; split <;> rfl

@[simp] theorem stopModulator_wakeTimer (s : State) : s.stopModulator.wakeTimer = s.wakeTimer := by
  unfold State.stopModulator; split <;> rfl

@[simp] theorem stopModulator_resetCause (s : State) : s.stopModulator.resetCause = s.resetCause := by
  unfold State.stopModulator; split <;> rfl

@[simp] theorem stopModulator_schedule (s : State) : s.stopModulator.schedule = s.schedule := by
  unfold State.stopModulator; split <;> rfl

@[simp] theorem stopModulator_cycle (s : State) : s.stopModulator.cycle = s.cycle := by
  unfold State.stopModulator; split <;> rfl

/-! ### The environment -/

theorem nextInput_of_schedule {s : State} {inp : Input} {rest : List Input} (h : s.schedule = inp :: rest) :
    s.nextInput = some (inp, rest) := by
  simp [State.nextInput, h]

theorem nextInput_of_cycle {s : State} {inp : Input} {rest : List Input} (h : s.schedule = [])
    (hc : s.cycle = inp :: rest) : s.nextInput = some (inp, rest) := by
  simp [State.nextInput, h, hc]

theorem nextInput_none {s : State} : s.nextInput = none ↔ s.schedule = [] ∧ s.cycle = [] := by
  unfold State.nextInput; split <;> simp_all

theorem advanceUptime_toNat (u : BitVec 32) (n : Nat) :
    (advanceUptime u n).toNat = min (u.toNat + n) (2 ^ 32 - 1) := by
  rw [advanceUptime, BitVec.toNat_ofNat]; exact Nat.mod_eq_of_lt (by omega)

@[simp] theorem advanceUptime_zero (u : BitVec 32) : advanceUptime u 0 = u :=
  BitVec.eq_of_toNat_eq (by rw [advanceUptime_toNat]; have := u.isLt; omega)

/-- Uptime never decreases. -/
theorem le_advanceUptime (u : BitVec 32) (n : Nat) : u.toNat ≤ (advanceUptime u n).toNat := by
  rw [advanceUptime_toNat]; have := u.isLt; omega

/-- Every uptime from the present one on can come next. -/
theorem advanceUptime_sub {u v : BitVec 32} (h : u.toNat ≤ v.toNat) : advanceUptime u (v.toNat - u.toNat) = v :=
  BitVec.eq_of_toNat_eq (by rw [advanceUptime_toNat]; have := v.isLt; omega)

/-! ### Sleep and wake -/

theorem sleepCp_zero (s : State) : s.sleepCp 0#17 = s := rfl

theorem sleepCp_pos {s : State} {n : BitVec 17} (h : 1 ≤ n.toNat) : s.sleepCp n = s.enterSleep .sleepCp n := by
  simp [State.sleepCp, Nat.not_lt.mpr h]

theorem wakeBy_awake {s : State} (h : s.pwr = .awake) (src : WakeSource) : s.wakeBy src = s := by
  cases src <;> simp [State.wakeBy, h]

theorem wakeBy_sleepCp {s : State} (h : s.pwr = .sleepCp) (src : WakeSource) : s.wakeBy src = s.leaveSleepCp := by
  cases src <;> simp [State.wakeBy, h]

theorem wakeBy_sleepDeep_timer {s : State} (h : s.pwr = .sleepDeep) : s.wakeBy .timer = s.resetBy .deepWake := by
  simp [State.wakeBy, h]

theorem wakeBy_sleepDeep_external {s : State} (h : s.pwr = .sleepDeep) : s.wakeBy .external = s := by
  simp [State.wakeBy, h]

/-! ### The tick -/

theorem effectiveSub_toNat_lt (k : BitVec 4) : (effectiveSub k).toNat < 10 := by
  unfold effectiveSub; split
  · decide
  · omega

theorem tickEnabled_iff (s : State) : s.tickEnabled = true ↔ s.run = true ∧ s.pwr = .awake := by
  simp [State.tickEnabled]

theorem execTick_disabled {s : State} (h : s.tickEnabled = false) : execTick s = .next s := by
  simp [execTick, h]

theorem execTick_written {s : State} {x : Symbol} (h : s.tickEnabled = true) (hx : s.sym = some x) :
    execTick s = .next ((s.tickWith x).withResult none) := by
  simp [execTick, h, hx]

theorem execTick_unwritten {s : State} (h : s.tickEnabled = true) (hx : s.sym = none) :
    execTick s = .fault .symUnwritten := by
  simp [execTick, h, hx]

/-- If a tick answers a next state, it was not enabled or it ran on a written symbol. -/
theorem execTick_next {s t : State} (h : execTick s = .next t) :
    (s.tickEnabled = false ∧ t = s) ∨
    (s.tickEnabled = true ∧ ∃ x, s.sym = some x ∧ t = (s.tickWith x).withResult none) := by
  unfold execTick at h
  split at h
  · split at h
    · exact .inr ⟨‹_›, _, ‹_›, by cases h; rfl⟩
    · cases h
  · exact .inl ⟨Bool.eq_false_iff.mpr ‹_›, by cases h; rfl⟩

@[simp] theorem ofCode_code (x : Symbol) : Symbol.ofCode x.code = some x := by cases x <;> rfl

theorem code_of_ofCode {c : BitVec 2} {x : Symbol} (h : Symbol.ofCode c = some x) : x.code = c := by
  have key : ∀ c : BitVec 2, Symbol.ofCode c = some .zero → c = 0#2 := by decide
  have key1 : ∀ c : BitVec 2, Symbol.ofCode c = some .one → c = 1#2 := by decide
  have key2 : ∀ c : BitVec 2, Symbol.ofCode c = some .marker → c = 2#2 := by decide
  cases x
  · exact (key c h).symm
  · exact (key1 c h).symm
  · exact (key2 c h).symm

/-! ### Durations -/

theorem secondsToHour_range {m sec : Nat} (hm : m < 60) (hs : sec < 60) :
    1 ≤ secondsToHour m sec ∧ secondsToHour m sec ≤ 3600 := by
  unfold secondsToHour; omega

theorem dailyTarget_lt (c : ScheduleConfig) : dailyTarget c < 86400 := by
  have := c.wakeH.isLt; have := c.wakeM.isLt
  unfold dailyTarget; omega

theorem secondsToDaily_range (c : ScheduleConfig) {h m sec : Nat} (hh : h < 24) (hm : m < 60) (hs : sec < 60) :
    1 ≤ secondsToDaily c h m sec ∧ secondsToDaily c h m sec ≤ 86400 := by
  have := dailyTarget_lt c
  unfold secondsToDaily; split <;> omega

end Sys2Proof.Machine
end

