-- ==== Sys2Proof/Laws/PerInstr.lean ====
section
/-! SUPPORT. Statements made per instruction. OperandCheck: the range check that stands before an operation's effect refuses
exactly the instructions that are not well-formed (30_encoding.md R74). -/

namespace Sys2Proof.Laws.OperandCheck

open Sys2Proof.Machine

/-- No field is reported exactly when the instruction is well-formed. -/
def Statement (i : Instr) : Prop := firstIllegal i = none ↔ i.wf = true

theorem tobcd (v : BitVec 12) : Statement (.tobcd v) := by
  simp [Statement, firstIllegal_eq_none, operandsOf, Instr.wf, Nat.lt_succ_iff]

theorem parity (v : BitVec 12) : Statement (.parity v) := by
  have := v.isLt
  simp [Statement, firstIllegal_eq_none, operandsOf, Instr.wf]; omega

theorem symfor (sec min : BitVec 6) (hour : BitVec 5) (doy : BitVec 9) (year2 : BitVec 7) (wday : BitVec 3) :
    Statement (.symfor sec min hour doy year2 wday) := by
  simp [Statement, firstIllegal_eq_none, operandsOf, Instr.wf, timeOfDayWf]; omega

theorem symwr (sym : BitVec 2) : Statement (.symwr sym) := by
  simp [Statement, firstIllegal_eq_none, operandsOf, Instr.wf, Nat.lt_succ_iff]

theorem modstart : Statement .modstart := by simp [Statement, firstIllegal_eq_none, operandsOf, Instr.wf]

theorem modstop : Statement .modstop := by simp [Statement, firstIllegal_eq_none, operandsOf, Instr.wf]

theorem tick : Statement .tick := by simp [Statement, firstIllegal_eq_none, operandsOf, Instr.wf]

theorem hms_iff (hour : BitVec 5) (min sec : BitVec 6) :
    (∀ o ∈ hmsOperands hour min sec, o.lo ≤ o.value ∧ o.value ≤ o.hi) ↔ timeOfDayWf hour min sec = true := by
  simp [hmsOperands, timeOfDayWf]; omega

theorem classify (hour : BitVec 5) (min sec : BitVec 6) : Statement (.classify hour min sec) :=
  (firstIllegal_eq_none _).trans (hms_iff hour min sec)

theorem sechour (hour : BitVec 5) (min sec : BitVec 6) : Statement (.sechour hour min sec) :=
  (firstIllegal_eq_none _).trans (hms_iff hour min sec)

theorem secdaily (hour : BitVec 5) (min sec : BitVec 6) : Statement (.secdaily hour min sec) :=
  (firstIllegal_eq_none _).trans (hms_iff hour min sec)

theorem sched (hour : BitVec 5) (min sec : BitVec 6) : Statement (.sched hour min sec) :=
  (firstIllegal_eq_none _).trans (hms_iff hour min sec)

theorem sleepcp (secs : BitVec 17) : Statement (.sleepcp secs) := by
  simp [Statement, firstIllegal_eq_none, operandsOf, Instr.wf]

theorem sleepdeep (secs : BitVec 17) : Statement (.sleepdeep secs) := by
  simp [Statement, firstIllegal_eq_none, operandsOf, Instr.wf]

end Sys2Proof.Laws.OperandCheck
end

