-- ==== Sys2Proof/Laws/Exec.lean ====
section
/-! SUPPORT. Everything an operation, an event and a step can do when they answer a next state, said once. -/

namespace Sys2Proof.Machine

/-- The range check of an operation passes exactly when it is well-formed. -/
theorem firstIllegal_none_iff_wf (i : Instr) : firstIllegal i = none ↔ i.wf = true := by
  cases i
  exacts [Laws.OperandCheck.tobcd _, Laws.OperandCheck.parity _, Laws.OperandCheck.symfor _ _ _ _ _ _,
    Laws.OperandCheck.symwr _, Laws.OperandCheck.modstart, Laws.OperandCheck.modstop, Laws.OperandCheck.tick,
    Laws.OperandCheck.classify _ _ _, Laws.OperandCheck.sechour _ _ _, Laws.OperandCheck.secdaily _ _ _,
    Laws.OperandCheck.sched _ _ _, Laws.OperandCheck.sleepcp _, Laws.OperandCheck.sleepdeep _]

/-- The operations that compute a result and write nothing else. -/
def pureOps : List Op := [.tobcd, .parity, .symfor, .classify, .sechour, .secdaily]

/-- If an operation answers a next state, it is one of these: a disabled tick, a pure operation, or one of the seven that
write state, with what it writes. -/
theorem exec_next_cases {i : Instr} {s t : State} (h : exec i s = .next t) :
    (i = .tick ∧ s.tickEnabled = false ∧ t = s) ∨
    (i.op ∈ pureOps ∧ s.pwr = .awake ∧ ∃ r, t = s.withResult (some r)) ∨
    (∃ x, i = .symwr (Symbol.code x) ∧ s.pwr = .awake ∧ t = (s.writeSym x).withResult none) ∨
    (i = .modstart ∧ s.pwr = .awake ∧ t = s.startModulator.withResult none) ∨
    (i = .modstop ∧ s.pwr = .awake ∧ t = s.stopModulator.withResult none) ∨
    (i = .tick ∧ s.tickEnabled = true ∧ ∃ x, s.sym = some x ∧ t = (s.tickWith x).withResult none) ∨
    (∃ hour min sec, i = .sched hour min sec ∧ s.pwr = .awake ∧ s.ports.timeTrusted = true ∧ LegalTime hour min sec ∧
      t = s.schedAct (classify s.cfg hour.toNat min.toNat s.uptime.toNat s.wake) hour.toNat min.toNat sec.toNat) ∨
    (∃ n, i = .sleepcp n ∧ s.pwr = .awake ∧ s.run = false ∧ n.toNat ≤ 86400 ∧ t = (s.sleepCp n).withResult none) ∨
    (∃ n, i = .sleepdeep n ∧ s.pwr = .awake ∧ s.run = false ∧ (1 ≤ n.toNat ∧ n.toNat ≤ 86400) ∧
      t = (s.sleepDeep n).withResult none) := by
  have pure : ∀ {i : Instr} {r : Result}, i.op ∈ pureOps → s.pwr = .awake →
      Host.Outcome.next (s.withResult (some r)) = (.next t : Out) →
      i.op ∈ pureOps ∧ s.pwr = .awake ∧ ∃ r, t = s.withResult (some r) := by
    intro i r hi hp hb; cases hb; exact ⟨hi, hp, r, rfl⟩
  cases i with
  | tobcd v => obtain ⟨hp, -, hb⟩ := controlOp_next h; exact .inr (.inl (pure (by simp [Instr.op, pureOps]) hp hb))
  | parity v => obtain ⟨hp, -, hb⟩ := controlOp_next h; exact .inr (.inl (pure (by simp [Instr.op, pureOps]) hp hb))
  | symfor => obtain ⟨hp, -, -, hb⟩ := timedOp_next h; exact .inr (.inl (pure (by simp [Instr.op, pureOps]) hp hb))
  | classify => obtain ⟨hp, -, -, hb⟩ := timedOp_next h; exact .inr (.inl (pure (by simp [Instr.op, pureOps]) hp hb))
  | sechour => obtain ⟨hp, -, -, hb⟩ := timedOp_next h; exact .inr (.inl (pure (by simp [Instr.op, pureOps]) hp hb))
  | secdaily => obtain ⟨hp, -, -, hb⟩ := timedOp_next h; exact .inr (.inl (pure (by simp [Instr.op, pureOps]) hp hb))
  | symwr c =>
    obtain ⟨hp, -, hb⟩ := controlOp_next h
    split at hb
    · rename_i x hx
      cases hb
      exact .inr (.inr (.inl ⟨x, by rw [code_of_ofCode hx], hp, rfl⟩))
    · cases hb
  | modstart =>
    obtain ⟨hp, -, hb⟩ := controlOp_next (i := .modstart) (s := s) h
    cases hb; exact .inr (.inr (.inr (.inl ⟨rfl, hp, rfl⟩)))
  | modstop =>
    obtain ⟨hp, -, hb⟩ := controlOp_next (i := .modstop) (s := s) h
    cases hb; exact .inr (.inr (.inr (.inr (.inl ⟨rfl, hp, rfl⟩))))
  | tick =>
    rcases execTick_next h with ⟨he, ht⟩ | ⟨he, hx⟩
    · exact .inl ⟨rfl, he, ht⟩
    · exact .inr (.inr (.inr (.inr (.inr (.inl ⟨rfl, he, hx⟩)))))
  | sched hour min sec =>
    obtain ⟨hp, hi, ht, hb⟩ := timedOp_next h
    have hl : LegalTime hour min sec := (firstIllegal_hms hour min sec).1 hi
    cases hb; exact .inr (.inr (.inr (.inr (.inr (.inr (.inl ⟨_, _, _, rfl, hp, ht, hl, rfl⟩))))))
  | sleepcp n =>
    obtain ⟨hp, hi, hr, hb⟩ := sleepOp_next h
    have hl : n.toNat ≤ 86400 := by simpa [Instr.wf] using (firstIllegal_none_iff_wf _).1 hi
    cases hb; exact .inr (.inr (.inr (.inr (.inr (.inr (.inr (.inl ⟨n, rfl, hp, hr, hl, rfl⟩)))))))
  | sleepdeep n =>
    obtain ⟨hp, hi, hr, hb⟩ := sleepOp_next h
    have hl : 1 ≤ n.toNat ∧ n.toNat ≤ 86400 := by simpa [Instr.wf] using (firstIllegal_none_iff_wf _).1 hi
    cases hb; exact .inr (.inr (.inr (.inr (.inr (.inr (.inr (.inr ⟨n, rfl, hp, hr, hl, rfl⟩)))))))

/-- If a presented word answers a next state, it decoded to an operation of the control loop, which ran. -/
theorem issue_next {w : Word} {s t : State} (h : issue w s = .next t) :
    s.pwr = .awake ∧ ∃ i, decode w = .ok i ∧ i ≠ .tick ∧ exec i s = .next t := by
  unfold issue at h
  split at h
  · split at h
    · cases h
    · split at h
      · cases h
      · exact ⟨‹_›, _, ‹_›, ‹_›, h⟩
  · cases h

/-- A step with an event is the handling of it. -/
theorem step_of_nextInput {s : State} {inp : Input} {rest : List Input} (h : s.nextInput = some (inp, rest)) :
    step s = handle inp.event (s.sample inp rest) := by
  simp only [step, advance, h]

/-- If a step answers a next state, there was no event, or a presented word ran an operation of the control loop, or the
timer's tick ran, or a wake event or a reset took place. -/
theorem step_next_cases {s t : State} (h : step s = .next t) :
    (s.nextInput = none ∧ t = s) ∨
    ∃ inp rest, s.nextInput = some (inp, rest) ∧
      ((∃ w i, inp.event = .command w ∧ decode w = .ok i ∧ i ≠ .tick ∧ exec i (s.sample inp rest) = .next t) ∨
       (inp.event = .tick ∧ exec .tick (s.sample inp rest) = .next t) ∨
       (∃ src, inp.event = .wake src ∧ t = (s.sample inp rest).wakeBy src) ∨
       (∃ c, (inp.event = .powerOn ∧ c = .powerOn ∨ inp.event = .manualReset ∧ c = .manual) ∧
          t = (s.sample inp rest).resetBy c)) := by
  unfold step advance at h
  split at h
  · cases h; exact .inl ⟨‹_›, rfl⟩
  · rename_i inp rest hs
    refine .inr ⟨inp, rest, hs, ?_⟩
    unfold handle at h
    split at h
    · obtain ⟨-, i, hd, hi, he⟩ := issue_next h; exact .inl ⟨_, i, ‹_›, hd, hi, he⟩
    · exact .inr (.inl ⟨‹_›, h⟩)
    · cases h; exact .inr (.inr (.inl ⟨_, ‹_›, rfl⟩))
    · cases h; exact .inr (.inr (.inr ⟨_, .inl ⟨‹_›, rfl⟩, rfl⟩))
    · cases h; exact .inr (.inr (.inr ⟨_, .inr ⟨‹_›, rfl⟩, rfl⟩))

/-- A run whose first step answers a next state goes on from there. -/
theorem run_succ {k : Nat} {s t : State} (h : step s = .next t) : core.run (k + 1) s = core.run k t := by
  have h' : core.step s = .next t := h
  simp only [Host.Core.run, h']

/-- What a reset leaves. -/
theorem resetBy_isResetOf (s : State) (c : ResetCause) : IsResetOf s (s.resetBy c) (wakeCause c) := by
  constructor <;> simp

theorem execAll_cons (i : Instr) (is : List Instr) {s t : State} (h : exec i s = .next t) :
    execAll (i :: is) s = execAll is t := by
  simp [execAll, h]

theorem execAll_append (is js : List Instr) {s t : State} (h : execAll is s = .next t) :
    execAll (is ++ js) s = execAll js t := by
  induction is generalizing s with
  | nil => cases h; rfl
  | cons i is ih =>
    simp only [List.cons_append, execAll] at h ⊢
    cases hi : exec i s <;> simp only [hi] at h ⊢
    · exact ih h
    · cases h
    · cases h

/-- A duration fits its field (43_deadline_scheduler.md R199). -/
theorem duration_toNat {n : Nat} (h : n ≤ 86400) : (BitVec.ofNat 17 n).toNat = n := by
  rw [BitVec.toNat_ofNat]; exact Nat.mod_eq_of_lt (by omega)

/-! ### The frame -/

/-- The values a row of the position table tests. -/
def slotSources : Slot → List Source
  | .mark | .zero => []
  | .bit src _ | .par src => [src]

/-- A row's symbol depends on the values it tests and on nothing else. -/
theorem slotSymbol_congr {t t' : Sample} {sl : Slot}
    (h : ∀ src ∈ slotSources sl, sourceValue t src = sourceValue t' src) : slotSymbol t sl = slotSymbol t' sl := by
  cases sl <;> simp_all [slotSources, slotSymbol]

/-- The symbol of a second depends on the fields its row tests and on nothing else. -/
theorem symbolFor_congr {t t' : Sample} (hs : t.sec = t'.sec)
    (h : ∀ src ∈ slotSources (slotOf t.sec), sourceValue t src = sourceValue t' src) : symbolFor t = symbolFor t' := by
  unfold symbolFor; rw [← hs]; exact slotSymbol_congr h

end Sys2Proof.Machine
end

