-- ==== Sys2Proof/Tests/Slice0.lean ====
section
/-! SUPPORT. The model's own tests. Expected values are the spec's: 95_test_vectors.md unless a comment says otherwise. The
second part shows, for each statement with hypotheses, a state and operands that meet them. -/

namespace Sys2Proof.Tests

open Sys2Proof Sys2Proof.Machine

/-- The example configuration `CFG_A` (43_deadline_scheduler.md). -/
def cfgA : ScheduleConfig :=
  { bootTestMin := 5#16, nightStartH := 0, nightEndH := 5, nightTxMin := 15, wakeH := 23, wakeM := 50 }

/-- Ports with the time trusted and the PWM attaching. -/
def goodPorts : Ports := { usec := 0, pwmAttachOk := true, timeTrusted := true }

/-- The state tuple `(SYM, SUB, RUN, CARRIER = LED, WAKE, PWR)` with `CFG_A` and `U` = 9999. -/
def st (sym : Option Symbol) (sub : BitVec 4) (run : Bool) (l : Level) (wake : Bool) (pwr : Power) : State :=
  { State.reset with
    sym := sym, sub := sub, run := run, carrier := l, led := l, wake := wake, pwr := pwr, cfg := cfgA, uptime := 9999#32,
    ports := goodPorts
    wakeTimer := if pwr = .awake then none else some 60#17
    resetCause := if wake then .deepWake else .powerOn }

/-- The next state of an outcome. -/
def nextOf : Out → Option State
  | .next s => some s
  | .fault _ => none
  | .refused _ => none

/-- The fault of an outcome. -/
def faultOf : Out → Option Fault
  | .next _ => none
  | .fault f => some f
  | .refused _ => none

/-- The result of an outcome. -/
def resultOf (o : Out) : Option Result := (nextOf o).bind (·.result)

/-- The symbol a command word gives, run by a step. -/
def stepWord (s : State) (w : Nat) : Out := step (s.withFetchWord 40 w)

/-- An awake, stopped state. -/
def idle : State := st (some .one) 6#4 false .off false .awake

/-- An awake, running state. -/
def running : State := st (some .one) 3#4 true .on false .awake

/-! ### WellFormed: a term each check refuses (30_encoding.md R74) -/

theorem test_wf_v : (Instr.tobcd 1000#12).wf = false := by decide
theorem test_wf_sym : (Instr.symwr 3#2).wf = false := by decide
theorem test_wf_sec : (Instr.symfor 60#6 0#6 0#5 1#9 0#7 0#3).wf = false := by decide
theorem test_wf_min : (Instr.symfor 0#6 60#6 0#5 1#9 0#7 0#3).wf = false := by decide
theorem test_wf_hour : (Instr.classify 24#5 0#6 0#6).wf = false := by decide
theorem test_wf_doy_low : (Instr.symfor 0#6 0#6 0#5 0#9 0#7 0#3).wf = false := by decide
theorem test_wf_doy_high : (Instr.symfor 0#6 0#6 0#5 367#9 0#7 0#3).wf = false := by decide
theorem test_wf_year2 : (Instr.symfor 0#6 0#6 0#5 1#9 100#7 0#3).wf = false := by decide
theorem test_wf_wday : (Instr.symfor 0#6 0#6 0#5 1#9 0#7 7#3).wf = false := by decide
theorem test_wf_secs_cp : (Instr.sleepcp 86401#17).wf = false := by decide
theorem test_wf_secs_deep : (Instr.sleepdeep 0#17).wf = false := by decide
theorem test_wf_edges : (Instr.tobcd 999#12).wf ∧ (Instr.sleepcp 86400#17).wf ∧ (Instr.sleepdeep 1#17).wf ∧
    (Instr.symfor 59#6 59#6 23#5 366#9 99#7 6#3).wf := by decide

/-! ### Decode: a word of every operation (95_test_vectors.md part 2; op, must-be-zero, fields of 30_encoding.md R71) -/

theorem test_decode_tobcd : decodeTableWord 40 0x10000003E7 = some (.tobcd 999#12) := by decide
theorem test_decode_parity : decodeTableWord 40 0x2000000365 = some (.parity 0x365#12) := by decide
theorem test_decode_symfor :
    decodeTableWord 40 0x39256CE4D1 = some (.symfor 36#6 37#6 13#5 313#9 26#7 1#3) := by decide
theorem test_decode_symfor_bits :
    decodeTableWord 40 0b0011000001111011101111011011011100011110 = some (.symfor 1#6 59#6 23#5 365#9 99#7 6#3) := by
  decide
theorem test_decode_symwr : decodeTableWord 40 0x4000000002 = some (.symwr 2#2) := by decide
theorem test_decode_modstart : decodeTableWord 40 0x5000000000 = some .modstart := by decide
theorem test_decode_modstop : decodeTableWord 40 0x6000000000 = some .modstop := by decide
theorem test_decode_tick : decodeTableWord 40 0x7000000000 = some .tick := by decide
theorem test_decode_classify : decodeTableWord 40 0x8000002500 = some (.classify 2#5 20#6 0#6) := by decide
theorem test_decode_sechour : decodeTableWord 40 0x9000002500 = some (.sechour 2#5 20#6 0#6) := by decide
theorem test_decode_secdaily : decodeTableWord 40 0xA000017EF2 = some (.secdaily 23#5 59#6 50#6) := by decide
theorem test_decode_sched_bits :
    decodeTableWord 40 0b1011000000000000000000010111110010000011 = some (.sched 23#5 50#6 3#6) := by decide
theorem test_decode_sleepcp : decodeTableWord 40 0xC000000960 = some (.sleepcp 2400#17) := by decide
theorem test_decode_sleepdeep : decodeTableWord 40 0xD00000A668 = some (.sleepdeep 42600#17) := by decide
theorem test_decode_reserved :
    [0x0000000000, 0xE000000000, 0xF000000000, 0xFFFFFFFFFF, 0x10000013E8, 0x4000000004, 0x5000000001, 0x8000022500,
      0xC000020000].map (decodeTableWord 40) = List.replicate 9 none := by decide
/-- The operation map of 30_encoding.md R75: match and mask. -/
theorem test_operation_map : (Op.all.map fun o => (o.matchWord.toNat, o.format.mask.toNat)) =
    [(0x1000000000, 0xFFFFFFF000), (0x2000000000, 0xFFFFFFF000), (0x3000000000, 0xF000000000),
      (0x4000000000, 0xFFFFFFFFFC), (0x5000000000, 0xFFFFFFFFFF), (0x6000000000, 0xFFFFFFFFFF),
      (0x7000000000, 0xFFFFFFFFFF), (0x8000000000, 0xFFFFFE0000), (0x9000000000, 0xFFFFFE0000),
      (0xA000000000, 0xFFFFFE0000), (0xB000000000, 0xFFFFFE0000), (0xC000000000, 0xFFFFFE0000),
      (0xD000000000, 0xFFFFFE0000)] := by decide
/-- No two rows of the operation map select one word. -/
theorem test_operations_disjoint : Op.all.Pairwise fun a b =>
    a.matchWord &&& (a.format.mask &&& b.format.mask) ≠ b.matchWord &&& (a.format.mask &&& b.format.mask) := by decide
theorem test_text : (Instr.sched 12#5 0#6 0#6).text = "SCHED 12 0 0" ∧ (Instr.symwr 2#2).text = "SYMWR MARKER" := by decide
theorem test_config_refused : ScheduleConfig.ofRegisters 5#16 24#5 5#5 15#6 23#5 50#6 = none ∧
    ScheduleConfig.ofRegisters 5#16 0#5 5#5 15#6 23#5 50#6 = some cfgA := by decide

/-! ### One step of each operation -/

theorem test_tobcd : resultOf (stepWord idle 0x100000016E) = some (.bcd 0x366#12) := by decide
theorem test_tobcd_1000 : faultOf (stepWord idle 0x10000003E8) = some (.operandRange .v 1000) := by decide
theorem test_parity : resultOf (stepWord idle 0x2000000023) = some (.parity 1#1) := by decide
theorem test_parity_low_byte : resultOf (stepWord idle 0x2000000365) = some (.parity 0#1) := by decide
theorem test_symfor_day200 : resultOf (stepWord idle 0x35A56CE4D1) = some (.symbol .one) := by decide
theorem test_symfor_marker29 : resultOf (stepWord idle 0x377BBDB71E) = some (.symbol .marker) := by decide
theorem test_symwr : (nextOf (stepWord running 0x4000000002)).map (fun s => (s.sym, s.carrier)) =
    some (some .marker, .on) := by decide
theorem test_modstart : (nextOf (stepWord (st (some .one) 7#4 false .off false .awake) 0x5000000000)).map
    (fun s => (s.sub, s.run, s.carrier)) = some (0#4, true, .off) := by decide
theorem test_modstop : (nextOf (stepWord running 0x6000000000)).map (fun s => (s.sub, s.run, s.carrier, s.led)) =
    some (3#4, false, .off, .off) := by decide
theorem test_tick_wraps : (nextOf (stepWord (st (some .one) 10#4 true .off false .awake) 0x7000000000)).map
    (fun s => (s.sub, s.carrier)) = some (1#4, .on) := by decide
theorem test_tick_off : (nextOf (stepWord (st (some .zero) 8#4 true .on false .awake) 0x7000000000)).map
    (fun s => (s.sub, s.carrier, s.led)) = some (9#4, .off, .off) := by decide
theorem test_classify_boot : resultOf (stepWord { idle with uptime := 299#32 } 0x800000C000) =
    some (.window .bootTest) := by decide
theorem test_classify_hold : resultOf (stepWord idle 0x8000017C80) = some (.window .preMidnightHold) := by decide
theorem test_sechour : resultOf (stepWord idle 0x9000000EFB) = some (.seconds 1#17) := by decide
theorem test_sechour_top : resultOf (stepWord idle 0x9000005000) = some (.seconds 3600#17) := by decide
theorem test_secdaily_rollover : resultOf (stepWord idle 0xA000017EF2) = some (.seconds 85810#17) := by decide
theorem test_secdaily_now : resultOf (stepWord idle 0xA000017C80) = some (.seconds 86400#17) := by decide
theorem test_sched_idle : (nextOf (stepWord running 0xB000002500)).map (fun s => (s.result, s.run, s.carrier, s.pwr)) =
    some (some (.sched .nightIdle .cp 2400#17), false, .off, .sleepCp) := by decide
theorem test_sched_suspend : (nextOf (stepWord idle 0xB000005000)).map (fun s => (s.result, s.wakeTimer, s.pwr)) =
    some (some (.sched .daytimeSuspend .deep 67800#17), some 67800#17, .sleepDeep) := by decide
theorem test_sleepcp_running : faultOf (stepWord running 0xC000000258) = some .sleepWhileRunning := by decide
theorem test_sleepcp_zero : (nextOf (stepWord idle 0xC000000000)).map (fun s => (s.pwr, s.wakeTimer)) =
    some (.awake, none) := by decide
theorem test_sleepdeep : (nextOf (stepWord idle 0xD00000A668)).map (fun s => (s.pwr, s.wakeTimer)) =
    some (.sleepDeep, some 42600#17) := by decide
theorem test_sleepdeep_zero : faultOf (stepWord idle 0xD000000000) = some (.operandRange .secs 0) := by decide
/-- The hold is tested before a night window that wraps midnight. -/
theorem test_hold_before_night :
    resultOf (stepWord { idle with cfg := { cfgA with nightStartH := 22 } } 0x8000017DC0) =
      some (.window .preMidnightHold) := by decide
/-- 30_encoding.md R84: SCHED's packed result, `001 ++ 00 ++ 17 zeros`. -/
theorem test_pack : resultValue (.sched .nightTransmit .none 0#17) = 2 ^ 19 := by decide
theorem test_reset_empty_schedule : (nextOf (step State.reset)) = some State.reset := by decide

/-! ### Events -/

/-- One event at a state, with good ports. -/
def at' (s : State) (e : Event) : State := { s with schedule := [⟨0, goodPorts, e⟩] }

/-- 10_state.md R27: uptime does not decrease. -/
theorem test_uptime_top : advanceUptime 4294967290#32 100 = 4294967295#32 ∧ advanceUptime 7#32 5 = 12#32 := by decide
/-- The cycle starts over: after the second of two steps the event of the first comes again. -/
theorem test_cycle : (match core.run 2 { running with cycle := [⟨0, goodPorts, .tick⟩] } with
    | .next s => (s.sub, s.nextInput) | _ => (0#4, none)) = (5#4, some (⟨0, goodPorts, .tick⟩, [])) := rfl
theorem test_attach_failure : (nextOf (step { at' idle (.command 0x5000000000#40) with
    schedule := [⟨0, { goodPorts with pwmAttachOk := false }, .command 0x5000000000#40⟩] })).map
    (fun s => (s.sym, s.sub, s.run, s.wake, s.cfg)) = some (none, 0#4, false, false, cfgA) := by decide
theorem test_tick_word_from_loop : faultOf (step (at' running (.command 0x7000000000#40))) =
    some (.reservedEncoding 0x7000000000#40) := by decide
theorem test_tick_unwritten : faultOf (step (at' (st none 0#4 true .off false .awake) .tick)) = some .symUnwritten := by
  decide
theorem test_wake_cp : (nextOf (step (at' (st (some .one) 6#4 false .off false .sleepCp) (.wake .external)))).map
    (fun s => (s.sym, s.sub, s.pwr)) = some (some .one, 6#4, .awake) := by decide
theorem test_wake_deep : (nextOf (step (at' (st (some .one) 6#4 false .off false .sleepDeep) (.wake .timer)))).map
    (fun s => (s.sym, s.sub, s.wake, s.pwr)) = some (none, 0#4, true, .awake) := by decide

/-! ### Witnesses: each statement's hypotheses are met -/

theorem legal_date : LegalDate 59#6 23#5 366#9 99#7 6#3 := by
  refine ⟨by decide, by decide, ⟨by decide, by decide⟩, by decide, by decide⟩

theorem legal_time : LegalTime 23#5 59#6 59#6 := ⟨by decide, by decide, by decide⟩

theorem idle_ready : idle.ReadyTimed := ⟨by decide, by decide⟩

theorem idle_inv : idle.Inv where
  ledMirrors := by decide
  stoppedIsOff := by decide
  subBound := by decide
  asleepIsStopped := by decide
  timerArmed := by decide
  timerRange := by intro n h; exact absurd h (by simp [idle, st])
  wakeLatched := by decide

theorem witness_EncodeOfDecode : ∃ w i, decode w = .ok i := ⟨0x6000000000#40, .modstop, rfl⟩
theorem witness_StepRunsDecodedOperation :
    (∃ (s : State) (n : Nat) (p : Ports) (w : Word) (i : Instr) (rest : List Input),
      s.nextInput = some (⟨n, p, .command w⟩, rest) ∧ s.pwr = .awake ∧ decode w = .ok i ∧ i ≠ .tick) ∧
    (∃ (s : State) (n : Nat) (p : Ports) (rest : List Input), s.nextInput = some (⟨n, p, .tick⟩, rest)) ∧
    (∃ (s : State) (nbits w : Nat) (i : Instr), s.pwr = .awake ∧ decodeTableWord nbits w = some i) ∧
    (∃ s : State, s.nextInput = none) :=
  ⟨⟨at' idle (.command 0x6000000000#40), 0, goodPorts, 0x6000000000#40, .modstop, [], rfl, rfl, rfl, by decide⟩,
    ⟨at' idle .tick, 0, goodPorts, [], rfl⟩, ⟨idle, 40, 0x6000000000, .modstop, rfl, rfl⟩,
    ⟨idle, rfl⟩⟩
theorem witness_EveryWordHasOneOutcome (w : Word) :
    (at' idle (.command w)).nextInput = some (⟨0, goodPorts, .command w⟩, []) ∧ (at' idle (.command w)).pwr = .awake := ⟨rfl, rfl⟩
/-- A word of each clause: the three reserved codes, a must-be-zero bit, an illegal field, a legal one. -/
theorem witness_EveryWordHasOneOutcome_words : (0x0FFFFFFFFF#40).toNat / 2 ^ 36 = 0x0 ∧
    (0xE000000000#40).toNat / 2 ^ 36 = 0xE ∧ (0xFFFFFFFFFF#40).toNat / 2 ^ 36 = 0xF ∧
    (∀ o ∈ Op.all, 0x5000000001#40 &&& o.format.mask ≠ o.matchWord) ∧
    ((Instr.tobcd 1000#12).wf = false ∧ decode 0x10000003E8#40 = .ok (.tobcd 1000#12)) ∧
    ((Instr.tobcd 999#12).wf = true ∧ decode 0x10000003E7#40 = .ok (.tobcd 999#12)) :=
  ⟨rfl, rfl, rfl, by decide, ⟨rfl, rfl⟩, rfl, rfl⟩
theorem witness_OperandRangeExactly : idle.pwr = .awake ∧ (Instr.symwr 3#2).wf = false ∧ (Instr.symwr 2#2).wf = true := by
  decide
theorem witness_FaultPriority_hms : idle.pwr = .awake ∧
    Instr.sched 24#5 0#6 0#6 ∈ [Instr.classify 24#5 0#6 0#6, .sechour 24#5 0#6 0#6, .secdaily 24#5 0#6 0#6, .sched 24#5 0#6 0#6] ∧
    24 ≤ (24#5).toNat ∧ ((23#5).toNat < 24 ∧ 60 ≤ (60#6).toNat) ∧
    ((23#5).toNat < 24 ∧ (59#6).toNat < 60 ∧ 60 ≤ (60#6).toNat) ∧
    { idle with ports := { goodPorts with timeTrusted := false } }.ports.timeTrusted = false := by decide
theorem witness_FaultPriority_symfor : idle.pwr = .awake ∧ 60 ≤ (60#6).toNat ∧ (59#6).toNat < 60 ∧ 24 ≤ (24#5).toNat ∧
    (23#5).toNat < 24 ∧ ((0#9).toNat = 0 ∧ 366 < (367#9).toNat) ∧ (1 ≤ (1#9).toNat ∧ (366#9).toNat ≤ 366) ∧
    100 ≤ (100#7).toNat ∧ (99#7).toNat < 100 ∧ 7 ≤ (7#3).toNat := by decide
theorem witness_FaultPriority_sleep : running.pwr = .awake ∧ running.run = true ∧ 86400 < (86401#17).toNat ∧
    (0#17).toNat = 0 ∧ (1 ≤ (1#17).toNat ∧ (86400#17).toNat ≤ 86400) := by decide
theorem witness_UntrustedTimeExactly :
    let s := { idle with ports := { goodPorts with timeTrusted := false } }
    s.pwr = .awake ∧ (Instr.sched 0#5 0#6 0#6).wf = true ∧
      (Instr.sched 0#5 0#6 0#6).op ∈ [Op.symfor, .classify, .sechour, .secdaily, .sched] ∧ s.ports.timeTrusted = false := by
  decide
theorem witness_UnwrittenSymbolExactly :
    let s := st none 0#4 true .off false .awake
    s.run = true ∧ s.pwr = .awake ∧ s.sym = none := by decide
theorem witness_NothingRunsAsleep :
    let s := at' (st (some .one) 6#4 false .off false .sleepCp) (.command 0x6000000000#40)
    s.pwr ≠ .awake ∧ Instr.modstop ≠ .tick ∧ s.nextInput = some (⟨0, goodPorts, .command 0x6000000000#40⟩, []) := by decide
theorem witness_TobcdResult : idle.pwr = .awake ∧ (999#12).toNat ≤ 999 := by decide
theorem witness_TobcdLaws : idle.pwr = .awake ∧ (999#12).toNat ≤ 999 ∧ (99#12).toNat ≤ 99 ∧ (59#12).toNat ≤ 59 ∧
    (23#12).toNat ≤ 23 ∧ (366#12).toNat ≤ 366 := by decide
theorem witness_TobcdLaws_result :
    resultOf (exec (.tobcd 366#12) idle) = some (.bcd 0x366#12) := by decide
theorem witness_TobcdOutOfContract : idle.pwr = .awake ∧ 999 < (1000#12).toNat := by decide
theorem witness_ParityResult : idle.pwr = .awake ∧
    (0x2000001000#40).toNat / 2 ^ 36 = 0x2 ∧ (0x2000001000#40).toNat / 2 ^ 12 % 2 ^ (36 - 12) ≠ 0 := by decide
theorem witness_SymforPureAndMarkers : (59#6).toNat < 60 ∧ LegalDate 59#6 23#5 366#9 99#7 6#3 ∧ idle.ReadyTimed :=
  ⟨by decide, legal_date, idle_ready⟩
theorem witness_ZeroSeconds : idle.ReadyTimed ∧ LegalDate 59#6 23#5 366#9 99#7 6#3 ∧ (58#6).toNat ∈ zeroSeconds :=
  ⟨idle_ready, legal_date, by decide⟩
theorem witness_MinuteAndHourBits : idle.ReadyTimed ∧ LegalDate 59#6 23#5 366#9 99#7 6#3 := ⟨idle_ready, legal_date⟩
theorem witness_ParitySeconds : idle.ReadyTimed ∧ LegalDate 59#6 23#5 366#9 99#7 6#3 ∧ (59#6).toNat < 60 :=
  ⟨idle_ready, legal_date, by decide⟩
theorem witness_FrameRoundTrip : idle.ReadyTimed ∧ LegalDate 59#6 23#5 366#9 99#7 6#3 ∧ (59#6).toNat < 60 :=
  ⟨idle_ready, legal_date, by decide⟩
theorem witness_SymwrWritesTheCell : running.pwr = .awake := by decide
theorem witness_ModstartStarts : idle.pwr = .awake ∧ idle.run = false ∧ idle.ports.pwmAttachOk = true := by decide
theorem witness_AttachFailureRestarts :
    let s := { idle with ports := { goodPorts with pwmAttachOk := false } }
    (s.pwr = .awake ∧ s.ports.timeTrusted = true) ∧ s.run = false ∧ s.ports.pwmAttachOk = false ∧
      resultOf (exec (.classify 2#5 14#6 59#6) s) = some (.window .nightTransmit) ∧
      resultOf (exec (.classify 2#5 14#6 59#6) { s with uptime := 0#32 }) = some (.window .bootTest) := by decide
theorem witness_AttachFailureRestarts_time : LegalTime 2#5 14#6 59#6 := ⟨by decide, by decide, by decide⟩
theorem witness_ModstopStops : (running.pwr = .awake ∧ running.run = true) ∧ idle.pwr = .awake ∧ idle.run = false := by
  decide
theorem witness_StartAndStopAreIdempotent :
    (∃ s t, exec .modstop s = .next t) ∧ running.pwr = .awake ∧ running.run = true := ⟨⟨running, _, rfl⟩, rfl, rfl⟩
theorem witness_TickEffect : running.run = true ∧ running.pwr = .awake ∧ running.sym = some .one := by decide
theorem witness_DisabledTickIsNoStep : idle.run = false := by decide
theorem witness_NthTickAfterStart :
    let s := st (some .marker) 0#4 true .off false .awake
    s.run = true ∧ s.pwr = .awake ∧ s.sym = some .marker ∧ s.sub = 0#4 ∧ 1 ≤ 11 := by decide
theorem witness_OneSecondOfOutput :
    let s := st (some .zero) 10#4 true .off false .awake
    s.run = true ∧ s.pwr = .awake ∧ s.sym = some .zero ∧ (s.sub = 0#4 ∨ s.sub = 10#4) ∧ 9 < 10 := by decide
theorem witness_TickReadsLatestWrite : (running.run = true ∧ running.pwr = .awake ∧ running.sub.toNat < 10) ∧
    ({ running with sub := 10#4 }.run = true ∧ { running with sub := 10#4 }.pwr = .awake ∧
      ¬{ running with sub := 10#4 }.sub.toNat < 10) := by decide
theorem witness_LateWriteSameWaveform :
    let s := st (some .zero) 10#4 true .off false .awake
    s.run = true ∧ s.pwr = .awake ∧ s.sym = some .zero ∧ (s.sub = 0#4 ∨ s.sub = 10#4) := by decide
theorem witness_TickAndStopCommute : running.run = true ∧ running.pwr = .awake ∧ running.sym = some .one := by decide
theorem witness_TickDependsOnModulatorOnly :
    let s' := { running with wake := true, uptime := 0#32 }
    running.sym = s'.sym ∧ running.sub = s'.sub ∧ running.run = s'.run ∧ running.pwr = s'.pwr ∧ running.run = true ∧
      running.pwr = .awake ∧ (nextOf (exec .tick running)).isSome = true := by decide
theorem witness_SymupdLatchesFrameSymbol : idle.ReadyTimed ∧ (36#6).toNat < 60 ∧ LegalDate 59#6 23#5 366#9 99#7 6#3 :=
  ⟨idle_ready, by decide, legal_date⟩
theorem witness_SymbolSurvivesUntilReset : ∃ t, running.sym = some .one ∧
    step (at' running (.command 0x5000000000#40)) = .next t := ⟨_, rfl, rfl⟩
theorem witness_SymbolSurvivesUntilReset_overwritten : ∃ t,
    (at' running (.command 0x4000000002#40)).sym = some .one ∧
    (at' running (.command 0x4000000002#40)).nextInput = some (⟨0, goodPorts, .command (encode (.symwr (Symbol.code .marker)))⟩, []) ∧
    step (at' running (.command 0x4000000002#40)) = .next t ∧ t.sym = some .marker := ⟨_, rfl, rfl, rfl, rfl⟩
theorem witness_ClassifyResult : idle.ReadyTimed ∧ LegalTime 23#5 59#6 59#6 := ⟨idle_ready, legal_time⟩
theorem witness_NightWindowAroundTheClock :
    let s := { idle with uptime := 300#32 }
    s.ReadyTimed ∧ LegalTime 4#5 59#6 0#6 ∧ ¬(s.uptime.toNat < s.cfg.bootTestMin.toNat * 60 ∧ s.wake = false) ∧
      ¬((4#5).toNat = s.cfg.wakeH.val ∧ s.cfg.wakeM.val ≤ (59#6).toNat) :=
  ⟨⟨by decide, by decide⟩, ⟨by decide, by decide, by decide⟩, by decide, by decide⟩
theorem witness_NightWindowAroundTheClock_wake :
    let s := { idle with wake := true, uptime := 0#32 }
    ¬(s.uptime.toNat < s.cfg.bootTestMin.toNat * 60 ∧ s.wake = false) := by decide
theorem witness_BootTestTieBreak :
    (∃ t u, exec (.classify 12#5 0#6 0#6) { idle with uptime := 299#32 } = .next t ∧
      exec (.sched 12#5 0#6 0#6) { idle with uptime := 299#32 } = .next u) ∧
    (∃ t u, exec (.classify 12#5 0#6 0#6) { idle with uptime := 10#32, wake := true } = .next t ∧
      exec (.sched 12#5 0#6 0#6) { idle with uptime := 10#32, wake := true } = .next u) ∧
    ({ idle with uptime := 299#32 } : State).attachFails = false ∧
    ({ idle with uptime := 299#32 } : State).uptime.toNat < cfgA.bootTestMin.toNat * 60 :=
  ⟨⟨_, _, rfl, rfl⟩, ⟨_, _, rfl, rfl⟩, rfl, by decide⟩
theorem illegal_time : ¬LegalTime 23#5 60#6 59#6 := fun h => absurd h.2.1 (by decide)
theorem witness_SechourResult : (idle.ReadyTimed ∧ LegalTime 23#5 59#6 59#6) ∧ idle.pwr = .awake ∧ ¬LegalTime 23#5 60#6 59#6 :=
  ⟨⟨idle_ready, legal_time⟩, by decide, illegal_time⟩
theorem witness_SechourResult_word :
    (0x9800000000#40).toNat / 2 ^ 36 = 0x9 ∧ (0x9800000000#40).toNat / 2 ^ 17 % 2 ^ (36 - 17) ≠ 0 := by decide
theorem witness_SecdailyResult : (idle.ReadyTimed ∧ LegalTime 23#5 59#6 59#6) ∧ idle.pwr = .awake ∧
    ¬LegalTime 23#5 60#6 59#6 := ⟨⟨idle_ready, legal_time⟩, by decide, illegal_time⟩
theorem witness_SecdailyResult_word :
    (0xA000020000#40).toNat / 2 ^ 36 = 0xA ∧ (0xA000020000#40).toNat / 2 ^ 17 % 2 ^ (36 - 17) ≠ 0 := by decide
theorem witness_RolloverRule : idle.ReadyTimed ∧ LegalTime 23#5 59#6 59#6 := ⟨idle_ready, legal_time⟩
/-- A time of each of SCHED's cases. -/
theorem witness_SchedIsItsParts : idle.ReadyTimed ∧ LegalTime 23#5 59#6 59#6 ∧
    [resultOf (exec (.classify 2#5 14#6 0#6) idle), resultOf (exec (.classify 2#5 15#6 0#6) idle),
      resultOf (exec (.classify 23#5 50#6 0#6) idle), resultOf (exec (.classify 5#5 0#6 0#6) idle),
      resultOf (exec (.classify 5#5 0#6 0#6) { idle with uptime := 0#32 })] =
    [some (.window .nightTransmit), some (.window .nightIdle), some (.window .preMidnightHold),
      some (.window .daytimeSuspend), some (.window .bootTest)] := ⟨idle_ready, legal_time, by decide⟩
theorem witness_SleepcpHalts : idle.pwr = .awake ∧ idle.run = false ∧ (86400#17).toNat ≤ 86400 ∧ (0#17).toNat = 0 ∧
    1 ≤ (1#17).toNat := by decide
theorem witness_SleepcpKeepsState : ∃ t, 1 ≤ (1#17).toNat ∧ exec (.sleepcp 1#17) (at' idle (.wake .external)) = .next t ∧
    (at' idle (.wake .external)).nextInput = some (⟨0, goodPorts, .wake .external⟩, []) := ⟨_, by decide, rfl, rfl⟩
theorem witness_SleepdeepHalts : idle.pwr = .awake ∧ idle.run = false ∧ 1 ≤ (1#17).toNat ∧ (86400#17).toNat ≤ 86400 := by
  decide
theorem witness_SleepdeepEndsInReset : ∀ e ∈ [Event.wake .timer, .wake .external, .powerOn, .manualReset],
    (at' (st (some .one) 6#4 false .off false .sleepDeep) e).pwr = .sleepDeep ∧
      (at' (st (some .one) 6#4 false .off false .sleepDeep) e).nextInput = some (⟨0, goodPorts, e⟩, []) ∧
      (nextOf (step (at' (st (some .one) 6#4 false .off false .sleepDeep) e))).isSome = true := by decide
theorem witness_ResetFromAnyState : ∀ e ∈ [Event.powerOn, .manualReset],
    (at' running e).nextInput = some (⟨0, goodPorts, e⟩, []) := by decide
theorem witness_StepKeepsInvariant : ∃ t, idle.Inv ∧ step idle = .next t := ⟨_, idle_inv, rfl⟩
theorem witness_ReachableStatesMeetR40 : ∃ s, core.run 3 { State.reset with
    cfg := cfgA
    schedule := [⟨0, goodPorts, .command 0x4000000001#40⟩, ⟨0, goodPorts, .command 0x5000000000#40⟩,
      ⟨0, goodPorts, .tick⟩] } = .next s ∧ s.carrier = .on := ⟨_, rfl, rfl⟩
theorem witness_ConfigurationIsConstant : ∃ s t, step s = .next t ∧ t.cfg = cfgA :=
  ⟨at' running .powerOn, _, rfl, rfl⟩
theorem witness_OperationFrames : ∃ t, exec .modstart idle = .next t ∧ t.run ≠ idle.run := ⟨_, rfl, by decide⟩
theorem witness_OperationFrames_noAttach : ∃ t u,
    exec .modstart { idle with ports := { goodPorts with pwmAttachOk := false } } = .next t ∧ t.resetCause = .restart ∧
    exec (.symwr 2#2) { idle with ports := { goodPorts with pwmAttachOk := false } } = .next u ∧ u.sym ≠ idle.sym :=
  ⟨_, _, rfl, rfl, rfl, by decide⟩
theorem witness_OnlyTickRaisesCarrier : ∃ t, exec .tick (st (some .one) 0#4 true .off false .awake) = .next t ∧
    (st (some .one) 0#4 true .off false .awake).carrier = .off ∧ t.carrier = .on := ⟨_, rfl, rfl, rfl⟩
theorem witness_OnlyTickRaisesCarrier_step : ∃ t, step (at' (st (some .one) 0#4 true .off false .awake) .tick) = .next t ∧
    (at' (st (some .one) 0#4 true .off false .awake) .tick).carrier = .off ∧ t.carrier = .on := ⟨_, rfl, rfl, rfl⟩
theorem witness_NoCarrierIntoSleep : ∃ t, step (idle.withFetchWord 40 0xB000002500) = .next t ∧ t.pwr ≠ .awake :=
  ⟨_, rfl, by decide⟩
theorem witness_NoCarrierIntoSleep_inv : (idle.withFetchWord 40 0xB000002500).Inv :=
  { idle_inv with timerArmed := idle_inv.timerArmed, timerRange := idle_inv.timerRange }
theorem witness_WakeFlagLatchedUntilReset : ∃ t,
    step (at' (st (some .one) 6#4 false .off false .sleepDeep) (.wake .timer)) = .next t ∧
      t.wake ≠ (at' (st (some .one) 6#4 false .off false .sleepDeep) (.wake .timer)).wake := ⟨_, rfl, by decide⟩
theorem witness_UptimeGrowsUntilReset : (∃ t, (at' running .tick).nextInput = some (⟨0, goodPorts, .tick⟩, []) ∧
    step (at' running .tick) = .next t) ∧ (9999#32).toNat ≤ (4294967295#32).toNat := ⟨⟨_, rfl, rfl⟩, by decide⟩
theorem witness_RestartLoopIsARun : LegalTime 12#5 0#6 0#6 ∧ 299 < cfgA.bootTestMin.toNat * 60 ∧
    { goodPorts with pwmAttachOk := false }.timeTrusted = true ∧ { goodPorts with pwmAttachOk := false }.pwmAttachOk = false :=
  ⟨⟨by decide, by decide, by decide⟩, by decide, rfl, rfl⟩

end Sys2Proof.Tests
end

/-! PROOFS. A step runs the operation its event's word decodes to (O6). -/

namespace Sys2Proof

/-- TICK's word is the only one that reads as TICK: its format leaves no bit open (30_encoding.md R75). -/
theorem decode_eq_tick_iff {w : Word} : decode w = .ok .tick ↔ w = encode .tick := by
  constructor
  · intro h
    obtain ⟨o, -, hm, hi⟩ := decode_ok h
    obtain rfl : o = .tick := by rw [← Op.assemble_op o w, ← hi]; rfl
    have hmask : Op.tick.format.mask = BitVec.allOnes 40 := by decide
    have hmatch : Op.tick.matchWord = encode .tick := by decide
    rwa [hmask, BitVec.and_allOnes, hmatch] at hm
  · rintro rfl
    exact decode_of_match (o := .tick) (by decide) (by decide)

/-- What a word given as a number can read as. -/
theorem decodeTableWord_some {nbits w : Nat} {i : Instr} (h : decodeTableWord nbits w = some i) :
    w < 2 ^ nbits ∧ decode (BitVec.ofNat 40 w) = .ok i := by
  unfold decodeTableWord at h
  split at h
  next hw =>
    split at h
    next hd => cases h; exact ⟨hw.2, hd⟩
    next => cases h
  next => cases h

end Sys2Proof

namespace Sys2Proof.Machine

/-- An awake device runs a presented word of the control loop as the operation it decodes to. -/
theorem issue_of_decode {w : Word} {i : Instr} {s : State} (hp : s.pwr = .awake) (hd : decode w = .ok i)
    (hi : i ≠ .tick) : issue w s = exec i s := by
  simp [issue, hp, hd, hi]

/-- Whoever issues a word, an awake device runs the operation it decodes to. -/
theorem handle_eventOfWord {w : Word} {i : Instr} {s : State} (hp : s.pwr = .awake) (hd : decode w = .ok i) :
    handle (eventOfWord w) s = exec i s := by
  by_cases hw : w = encode .tick
  · obtain rfl : i = .tick := Except.ok.inj (hd.symm.trans (decode_eq_tick_iff.2 hw))
    simp [eventOfWord, hw, handle]
  · have hi : i ≠ .tick := by rintro rfl; exact hw (decode_eq_tick_iff.1 hd)
    simp only [eventOfWord, if_neg hw, handle]
    exact issue_of_decode hp hd hi

theorem step_of_command {s : State} {n : Nat} {p : Ports} {w : Word} {i : Instr} {rest : List Input}
    (hn : s.nextInput = some (⟨n, p, .command w⟩, rest)) (hp : s.pwr = .awake) (hd : decode w = .ok i)
    (hi : i ≠ .tick) : step s = exec i (s.sample ⟨n, p, .command w⟩ rest) :=
  (step_of_nextInput hn).trans (issue_of_decode hp hd hi)

theorem step_of_tick {s : State} {n : Nat} {p : Ports} {rest : List Input}
    (hn : s.nextInput = some (⟨n, p, .tick⟩, rest)) : step s = exec .tick (s.sample ⟨n, p, .tick⟩ rest) :=
  step_of_nextInput hn

theorem step_of_nextInput_none {s : State} (hn : s.nextInput = none) : step s = .next s := by
  simp only [step, advance, hn]

/-- A placed word comes next, before the rest of the schedule. -/
theorem nextInput_withFetchWord {nbits w : Nat} (s : State) (hw : w < 2 ^ nbits) :
    (s.withFetchWord nbits w).nextInput = some (presentWord (BitVec.ofNat 40 w), s.schedule) :=
  nextInput_of_schedule (by simp only [State.withFetchWord, presentFirst, Nat.mod_eq_of_lt hw])

/-- A placed word finds the state as it was before the placing, but for the ports. -/
theorem sample_withFetchWord (s : State) (nbits w : Nat) (v : Word) :
    (s.withFetchWord nbits w).sample (presentWord v) s.schedule = { s with ports := (presentWord v).ports } := by
  simp [State.withFetchWord, State.sample, presentWord]

theorem step_withFetchWord {s : State} {nbits w : Nat} {i : Instr} (hp : s.pwr = .awake)
    (hd : decodeTableWord nbits w = some i) :
    step (s.withFetchWord nbits w) =
      exec i { s with ports := { usec := 0, pwmAttachOk := true, timeTrusted := true } } := by
  obtain ⟨hw, hd⟩ := decodeTableWord_some hd
  rw [step_of_nextInput (nextInput_withFetchWord s hw), sample_withFetchWord]
  exact handle_eventOfWord hp hd

/-- Settles O6, clause by clause: a command, a tick, a placed word, no event. -/
theorem stepRunsDecodedOperation : Obligations.StepRunsDecodedOperation :=
  ⟨fun _ _ _ _ _ _ hn hp hd hi => step_of_command hn hp hd hi,
   fun _ _ _ _ hn => step_of_tick hn,
   fun _ _ _ _ hp hd => step_withFetchWord hp hd,
   fun _ hn => step_of_nextInput_none hn⟩

end Sys2Proof.Machine

/-! PROOFS. A tick reads the symbol written before it (O31). The lemmas say what SYMWR and TICK answer and what an enabled
tick shows, for the statements about the modulator as well. -/

namespace Sys2Proof.Machine

/-- A symbol's code is a legal field of SYMWR (30_encoding.md R74, R80). -/
theorem symwr_code_wf (x : Symbol) : (Instr.symwr x.code).wf = true := by cases x <;> decide

/-- SYMWR of a symbol's code on an awake device writes that symbol (42_carrier_modulator.md R150). -/
theorem exec_symwr_code {s : State} (hp : s.pwr = .awake) (x : Symbol) :
    exec (.symwr x.code) s = .next ((s.writeSym x).withResult none) := by
  have hlegal : firstIllegal (.symwr x.code) = none := (firstIllegal_none_iff_wf _).2 (symwr_code_wf x)
  calc exec (.symwr x.code) s = execSymwr x.code s := rfl
    _ = .next ((s.writeSym x).withResult none) := by
      rw [execSymwr, controlOp_legal hp hlegal, ofCode_code]

/-- An enabled tick drives the symbol it reads (42_carrier_modulator.md R156). -/
theorem exec_tick_written {s : State} {x : Symbol} (hr : s.run = true) (hp : s.pwr = .awake) (hx : s.sym = some x) :
    exec .tick s = .next ((s.tickWith x).withResult none) :=
  execTick_written ((tickEnabled_iff s).2 ⟨hr, hp⟩) hx

@[simp] theorem tickWith_sym (s : State) (x : Symbol) : (s.tickWith x).sym = s.sym := rfl

@[simp] theorem tickWith_led (s : State) (x : Symbol) : (s.tickWith x).led = (s.tickWith x).carrier := rfl

theorem effectiveSub_toNat (k : BitVec 4) : (effectiveSub k).toNat = if k.toNat < 10 then k.toNat else 0 := by
  unfold effectiveSub
  by_cases h : k.toNat < 10
  · rw [if_neg (Nat.not_le.2 h), if_pos h]
  · rw [if_pos (Nat.not_lt.1 h), if_neg h]; rfl

/-- A subslot is 100 ms long: the level counted in subslots is the waveform in milliseconds (42_carrier_modulator.md R158). -/
theorem levelAt_eq_waveform (x : Symbol) (k : BitVec 4) : levelAt x k = waveform x k.toNat := by
  unfold levelAt waveform
  refine if_congr ?_ rfl rfl
  cases x <;> simp only [onLen] <;> omega

/-- An enabled tick shows the level of the stored counter's subslot, or of subslot 0 where the counter stands at 10 or more. -/
theorem tickWith_carrier (s : State) (x : Symbol) :
    (s.tickWith x).carrier = waveform x (if s.sub.toNat < 10 then s.sub.toNat else 0) := by
  calc (s.tickWith x).carrier = levelAt x (effectiveSub s.sub) := rfl
    _ = waveform x (effectiveSub s.sub).toNat := levelAt_eq_waveform x _
    _ = waveform x (if s.sub.toNat < 10 then s.sub.toNat else 0) := by rw [effectiveSub_toNat]

/-- SYMWR and the tick after it, on a running device, end where a tick with the new symbol does. -/
theorem execAll_symwr_tick {s : State} (hr : s.run = true) (hp : s.pwr = .awake) (x : Symbol) :
    execAll [.symwr x.code, .tick] s =
      .next ((((s.writeSym x).withResult none).tickWith x).withResult none) :=
  (execAll_cons _ _ (exec_symwr_code hp x)).trans (execAll_cons _ _ (exec_tick_written hr hp rfl))

/-- Settles O31: SYMWR leaves the counter alone, and the tick drives the symbol it wrote. -/
theorem tickReadsLatestWrite : Obligations.TickReadsLatestWrite :=
  fun _ x hr hp => ⟨_, execAll_symwr_tick hr hp x, rfl, tickWith_carrier _ x, rfl⟩

end Sys2Proof.Machine

/-! PROOFS. The parity of a value and PARITY's answer (O16). The lemma on the high bits of a word is about every operation. -/

namespace Sys2Proof.Machine

/-- A chain of exclusive-ors over a list turns its start over once for each member that holds. -/
theorem foldl_xor_eq_bodd_countP (p : Nat → Bool) (l : List Nat) (b : Bool) :
    l.foldl (fun a k => a ^^ p k) b = (b ^^ Nat.bodd (l.countP p)) := by
  induction l generalizing b with
  | nil => simp
  | cons k l ih => rw [List.foldl_cons, ih, List.countP_cons]; cases p k <;> simp

/-- The parity function as a chain over bits 0 to 7 (40_bcd_parity.md R105). -/
theorem parityBit_eq_foldl (v : BitVec 12) :
    parityBit v = (List.range 8).foldl (fun a k => a ^^ v.toNat.testBit k) false := by
  have h : List.range 8 = [0, 1, 2, 3, 4, 5, 6, 7] := rfl
  simp [h, parityBit, BitVec.testBit_toNat]

/-- The parity is the oddness of the number of 1 bits among bits 0 to 7 (40_bcd_parity.md R105). -/
theorem parityBit_eq_decide (v : BitVec 12) : parityBit v = decide (lowPopcount v.toNat % 2 = 1) := by
  rw [parityBit_eq_foldl, foldl_xor_eq_bodd_countP, Bool.false_xor]
  exact Nat.testBit_zero _

/-- A bit that says whether a number is odd is the number modulo 2. -/
theorem ofBool_odd (n : Nat) : BitVec.ofBool (decide (n % 2 = 1)) = BitVec.ofNat 1 n := by
  apply BitVec.eq_of_toNat_eq
  rcases Nat.mod_two_eq_zero_or_one n with h | h <;> simp [h]

/-- PARITY on an awake device answers the parity of its operand, whatever the value. -/
theorem exec_parity {s : State} (hp : s.pwr = .awake) (v : BitVec 12) :
    exec (.parity v) s = .next (s.withResult (some (.parity (BitVec.ofBool (parityBit v))))) :=
  controlOp_legal hp ((firstIllegal_none_iff_wf (.parity v)).2 rfl)

/-- A word of an operation's code with a 1 above the operand bits of its format does not decode (30_encoding.md R73). -/
theorem refusesHighBits (o : Op) : RefusesHighBits o.code.toNat (openBits o.format) := by
  intro w hcode hhigh i hd
  obtain ⟨o', hop, hm, -⟩ := decode_ok hd
  obtain rfl : o' = o := by
    have hsame : o'.code = o.code := by
      rw [Op.code_of_ofCode hop, ← BitVec.toNat_inj, opField_toNat, hcode]
    simpa using congrArg Op.ofCode hsame
  rw [and_mask_eq_matchWord] at hm
  have hk : openBits o'.format ≤ 36 := by cases o' <;> decide
  have hquot : w.toNat / 2 ^ openBits o'.format = o'.code.toNat * 2 ^ (36 - openBits o'.format) := by
    refine Nat.eq_of_mul_eq_mul_right (Nat.two_pow_pos (openBits o'.format)) ?_
    rw [hm, Nat.mul_assoc, ← Nat.pow_add, Nat.sub_add_cancel hk]
  exact hhigh (by rw [hquot, Nat.mul_mod_left])

/-- Settles O16: the chain of exclusive-ors counts the 1 bits modulo 2; the word is the encoder's, and format V has 12 operand
bits. -/
theorem parityResult : Obligations.ParityResult := by
  refine ⟨fun s v hp => ?_, fun v => wordOf_toNat .parity (by have := v.isLt; simp only [operandField]; omega),
    refusesHighBits .parity⟩
  rw [exec_parity hp, parityBit_eq_decide, ofBool_odd]; rfl

end Sys2Proof.Machine

/-! PROOFS. The parity seconds of a frame (O20). SYMFOR's answers are tied to a frame by `exec_symfor`; the rows of the position
table and the digits of a field have their own lemmas, for the other statements about the frame as well. -/

namespace Sys2Proof.Machine

/-- The sample of the first second of the minute that the wall-clock fields name. -/
def minuteStart (min : BitVec 6) (hour : BitVec 5) (doy : BitVec 9) (year2 : BitVec 7) (wday : BitVec 3) : Sample :=
  ⟨0, min.toNat, hour.toNat, doy.toNat, year2.toNat, wday.toNat⟩

/-- The symbols of a sample's minute, second by second. -/
def frameOf (t : Sample) (k : Nat) : Symbol := symbolFor { t with sec := k }

/-- SYMFOR of legal fields answers the frame's symbol of its second. -/
theorem exec_symfor {s : State} {sec min : BitVec 6} {hour : BitVec 5} {doy : BitVec 9} {year2 : BitVec 7}
    {wday : BitVec 3} (hs : s.ReadyTimed) (hsec : sec.toNat < 60) (hd : LegalDate min hour doy year2 wday) :
    exec (.symfor sec min hour doy year2 wday) s =
      .next (s.withResult (some (.symbol (frameOf (minuteStart min hour doy year2 wday) sec.toNat)))) := by
  obtain ⟨hp, ht⟩ := hs
  obtain ⟨hmin, hhour, ⟨hdoy, hdoy'⟩, hyear, hwday⟩ := hd
  have hwf : (Instr.symfor sec min hour doy year2 wday).wf = true := by simp [Instr.wf, timeOfDayWf, *]
  exact timedOp_legal hp ((firstIllegal_none_iff_wf _).2 hwf) ht

/-! ### The digits of a field -/

/-- The number of a concatenation: the upper part counts in steps of the lower part's size. -/
theorem append_toNat {m n : Nat} (x : BitVec m) (y : BitVec n) : (x ++ y).toNat = 2 ^ n * x.toNat + y.toNat := by
  rw [BitVec.toNat_append, ← Nat.shiftLeft_add_eq_or_of_lt y.isLt, Nat.shiftLeft_eq, Nat.mul_comm]

/-- TOBCD's value as a number (40_bcd_parity.md R100). -/
theorem toBcd_toNat {n : Nat} (h : n < 1000) : (toBcd n).toNat = 256 * (n / 100) + 16 * (n / 10 % 10) + n % 10 := by
  simp only [toBcd, append_toNat, BitVec.toNat_ofNat]; omega

/-- A value below 100 has no hundreds. -/
theorem toBcd_toNat_of_lt_hundred {n : Nat} (h : n < 100) : (toBcd n).toNat = 16 * (n / 10) + n % 10 := by
  rw [toBcd_toNat (by omega)]; omega

/-! ### The rows of the position table -/

@[simp] theorem bitSymbol_beq_one (b : Bool) : (bitSymbol b == .one) = b := by cases b <;> rfl

/-- The values under test do not depend on the second (41_frame_encoder.md R120). -/
@[simp] theorem sourceValue_sec (t : Sample) (k : Nat) (src : Source) :
    sourceValue { t with sec := k } src = sourceValue t src := by cases src <;> rfl

/-- A mask of one bit tests that bit. -/
theorem and_twoPow_ne_zero {w i : Nat} (x : BitVec w) (hi : i < w) :
    decide (x &&& BitVec.twoPow w i ≠ 0#w) = x.getLsbD i := by
  have hone : BitVec.twoPow w i ≠ 0#w := fun hz => by
    simpa [BitVec.getLsbD_twoPow, hi] using congrArg (BitVec.getLsbD · i) hz
  rw [BitVec.and_twoPow]
  cases x.getLsbD i <;> simp [hone]

section
variable {t : Sample} {src : Source} {k : Nat}

/-- A BIT row is ONE exactly when its bit of the value under test is 1 (41_frame_encoder.md R120). -/
theorem frameOf_bit {i : Nat} (hi : i < 12) (h : slotOf k = .bit src (BitVec.twoPow 12 i)) :
    (frameOf t k == .one) = (sourceValue t src).toNat.testBit i := by
  rw [frameOf, symbolFor, h, slotSymbol, bitSymbol_beq_one, and_twoPow_ne_zero _ hi, sourceValue_sec,
    BitVec.testBit_toNat]

/-- A ZEROK row is ZERO (41_frame_encoder.md R120). -/
theorem frameOf_zero (h : slotOf k = .zero) : frameOf t k = .zero := by rw [frameOf, symbolFor, h, slotSymbol]

/-- A PAR row is ONE exactly when the value under test has an odd number of ones (41_frame_encoder.md R126). -/
theorem frameOf_par (h : slotOf k = .par src) :
    frameOf t k = if lowPopcount (sourceValue t src).toNat % 2 = 1 then .one else .zero := by
  rw [frameOf, symbolFor, h, slotSymbol, sourceValue_sec, parityBit_eq_decide, bitSymbol]
  simp only [decide_eq_true_eq]

end

/-! ### The seconds of a field -/

/-- A number of few bits has its ones among them. -/
theorem lowPopcount_of_lt {v m : Nat} (hm : m ≤ 8) (hv : v < 2 ^ m) :
    lowPopcount v = (List.range m).countP fun k => v.testBit k := by
  obtain ⟨d, hd⟩ := Nat.exists_eq_add_of_le hm
  have hhigh : ((List.range d).map (m + ·)).countP (fun k => v.testBit k) = 0 := by
    simp only [List.countP_eq_zero, List.mem_map]
    rintro _ ⟨j, -, rfl⟩
    rw [Nat.testBit_eq_false_of_lt (hv.trans_le (Nat.pow_le_pow_right (by decide) (Nat.le_add_right m j)))]
    decide
  rw [lowPopcount, hd, List.range_add, List.countP_append, hhigh, Nat.add_zero]

/-- Seconds that carry bits 0 to `m - 1` of a value of `m` bits carry as many ONEs as it has 1 bits. A row names a second and
its bit. -/
theorem onesAmong_bitRows {t : Sample} {src : Source} {rows : List (Nat × Nat)} {m : Nat}
    (hrows : ∀ p ∈ rows, slotOf p.1 = .bit src (BitVec.twoPow 12 p.2))
    (hbits : (rows.map Prod.snd).Perm (List.range m)) (hm : m ≤ 8) (hv : (sourceValue t src).toNat < 2 ^ m) :
    onesAmong (frameOf t) (rows.map Prod.fst) = lowPopcount (sourceValue t src).toNat := by
  have hrow : ∀ p ∈ rows, (frameOf t p.1 == .one) = (sourceValue t src).toNat.testBit p.2 := fun p hp => by
    have hlt : p.2 < m := List.mem_range.1 (hbits.subset (List.mem_map_of_mem hp))
    exact frameOf_bit (by omega) (hrows p hp)
  calc onesAmong (frameOf t) (rows.map Prod.fst)
      = (rows.map Prod.snd).countP fun i => (sourceValue t src).toNat.testBit i := by
        rw [onesAmong, List.countP_map, List.countP_map]
        exact List.countP_congr fun p hp => by simp only [Function.comp, hrow p hp]
    _ = (List.range m).countP fun i => (sourceValue t src).toNat.testBit i := hbits.countP_eq _
    _ = lowPopcount (sourceValue t src).toNat := (lowPopcount_of_lt hm hv).symm

/-- The seconds that carry the hour's digits, each with its bit (41_frame_encoder.md R124). -/
def hourRows : List (Nat × Nat) := [(12, 5), (13, 4), (15, 3), (16, 2), (17, 1), (18, 0)]

/-- The seconds that carry the minute's digits, each with its bit (41_frame_encoder.md R123). -/
def minuteRows : List (Nat × Nat) := [(1, 6), (2, 5), (3, 4), (5, 3), (6, 2), (7, 1), (8, 0)]

/-- The digits of an hour have 6 bits (40_bcd_parity.md R104), which its seconds carry; second 14 adds none. -/
theorem onesAmong_hour {t : Sample} (h : t.hour < 24) :
    onesAmong (frameOf t) [12, 13, 14, 15, 16, 17, 18] = lowPopcount (toBcd t.hour).toNat := by
  have h14 : frameOf t 14 = .zero := frameOf_zero rfl
  have hv : (toBcd t.hour).toNat < 2 ^ 6 := by rw [toBcd_toNat_of_lt_hundred (by omega)]; omega
  calc onesAmong (frameOf t) [12, 13, 14, 15, 16, 17, 18] = onesAmong (frameOf t) (hourRows.map Prod.fst) := by
        simp [onesAmong, hourRows, List.countP_cons, h14]
    _ = lowPopcount (toBcd t.hour).toNat :=
        onesAmong_bitRows (src := .hour) (m := 6) (by decide) (by decide) (by decide) hv

/-- The digits of a minute have 7 bits (40_bcd_parity.md R104), which its seconds carry; second 4 adds none. -/
theorem onesAmong_minute {t : Sample} (h : t.min < 60) :
    onesAmong (frameOf t) [1, 2, 3, 4, 5, 6, 7, 8] = lowPopcount (toBcd t.min).toNat := by
  have h4 : frameOf t 4 = .zero := frameOf_zero rfl
  have hv : (toBcd t.min).toNat < 2 ^ 7 := by rw [toBcd_toNat_of_lt_hundred (by omega)]; omega
  calc onesAmong (frameOf t) [1, 2, 3, 4, 5, 6, 7, 8] = onesAmong (frameOf t) (minuteRows.map Prod.fst) := by
        simp [onesAmong, minuteRows, List.countP_cons, h4]
    _ = lowPopcount (toBcd t.min).toNat :=
        onesAmong_bitRows (src := .minute) (m := 7) (by decide) (by decide) (by decide) hv

/-! ### Even parity -/

/-- With the second that says whether its count is odd, a list of seconds carries an even number of ONEs. -/
theorem onesAmong_append_parity {frame : Nat → Symbol} {data : List Nat} {k n : Nat} (hdata : onesAmong frame data = n)
    (hpar : frame k = if n % 2 = 1 then .one else .zero) : onesAmong frame (data ++ [k]) % 2 = 0 := by
  have hsum : onesAmong frame (data ++ [k]) = n + onesAmong frame [k] := by
    rw [← hdata]; exact List.countP_append
  have hk : onesAmong frame [k] = n % 2 := by
    rcases Nat.mod_two_eq_zero_or_one n with h | h <;> simp [onesAmong, hpar, h]
  omega

/-- Settles O20: the data seconds of a field carry the 1 bits of its digits, and its parity second says whether their number
is odd. -/
theorem paritySeconds : Obligations.ParitySeconds := by
  intro s min hour doy year2 wday hs hd
  have ⟨hmin, hhour, _⟩ := hd
  have h36 := frameOf_par (t := minuteStart min hour doy year2 wday) (k := 36) (src := .hour) rfl
  have h37 := frameOf_par (t := minuteStart min hour doy year2 wday) (k := 37) (src := .minute) rfl
  refine ⟨frameOf (minuteStart min hour doy year2 wday), fun sec hsec => exec_symfor hs hsec hd, ?_, ?_,
    onesAmong_append_parity (onesAmong_hour hhour) h36, onesAmong_append_parity (onesAmong_minute hmin) h37⟩
  · rw [← toBcd_toNat_of_lt_hundred (by omega)]; exact h36
  · rw [← toBcd_toNat_of_lt_hundred (by omega)]; exact h37

end Sys2Proof.Machine

/-! PROOFS. The marker seconds, the zero seconds and the seconds of the minute and the hour (O17 to O19). What a second
carries is read off its row of the position table. -/

namespace Sys2Proof.Machine

/-- MARK rows alone give MARKER (41_frame_encoder.md R120). -/
theorem frameOf_eq_marker_iff {t : Sample} {k : Nat} : frameOf t k = .marker ↔ slotOf k = .mark := by
  have hdata : ∀ b : Bool, bitSymbol b ≠ .marker := by decide
  rw [frameOf, symbolFor]
  cases slotOf k with
  | mark => simp [slotSymbol]
  | zero => simp [slotSymbol]
  | bit src mask => simp only [slotSymbol, hdata, reduceCtorEq]
  | par src => simp only [slotSymbol, hdata, reduceCtorEq]

/-- The MARK rows are those of the marker seconds (41_frame_encoder.md R122, R133). -/
theorem slotOf_eq_mark_iff : ∀ k < 60, (slotOf k = .mark ↔ k ∈ markerSeconds) := by decide

/-- Settles O17: the symbol is the frame's, which only a MARK row makes MARKER. -/
theorem symforPureAndMarkers : Obligations.SymforPureAndMarkers :=
  fun sec min hour doy year2 wday hsec hd =>
    ⟨frameOf (minuteStart min hour doy year2 wday) sec.toNat,
      frameOf_eq_marker_iff.trans (slotOf_eq_mark_iff _ hsec), fun _ hs => exec_symfor hs hsec hd⟩

/-- The reserved-zero and the unused seconds have ZEROK rows (41_frame_encoder.md R129, R130). -/
theorem slotOf_zeroSeconds : ∀ k ∈ zeroSeconds, k < 60 ∧ slotOf k = .zero := by decide

/-- Settles O18: a ZEROK row is ZERO whatever the sample. -/
theorem zeroSeconds_yield_zero : Obligations.ZeroSeconds := by
  intro s sec min hour doy year2 wday hs hd hsec
  obtain ⟨hlt, hrow⟩ := slotOf_zeroSeconds _ hsec
  rw [exec_symfor hs hlt hd, frameOf_zero hrow, State.withResult]

/-! ### The digits at their seconds -/

/-- From bit 4 on a value below 100 has its tens digit (40_bcd_parity.md R100). -/
theorem toBcd_testBit_tens {n : Nat} (h : n < 100) (i : Nat) : (toBcd n).toNat.testBit (4 + i) = (n / 10).testBit i := by
  rw [toBcd_toNat_of_lt_hundred h, Nat.testBit_two_pow_mul_add (i := 4) _ (by omega), if_neg (by omega),
    Nat.add_sub_cancel_left]

/-- Bits 0 to 3 of a value below 100 are its units digit (40_bcd_parity.md R100). -/
theorem toBcd_testBit_units {n i : Nat} (h : n < 100) (hi : i < 4) :
    (toBcd n).toNat.testBit i = (n % 10).testBit i := by
  rw [toBcd_toNat_of_lt_hundred h, Nat.testBit_two_pow_mul_add (i := 4) _ (by omega), if_pos hi]

/-- A BIT row carries its bit of the value under test (41_frame_encoder.md R120). -/
theorem frameOf_bitRow {t : Sample} {src : Source} {k i : Nat} (hi : i < 12)
    (h : slotOf k = .bit src (BitVec.twoPow 12 i)) :
    frameOf t k = if (sourceValue t src).toNat.testBit i then .one else .zero := by
  rw [frameOf, symbolFor, h, slotSymbol, and_twoPow_ne_zero _ hi, sourceValue_sec, BitVec.testBit_toNat, bitSymbol]

/-- The seconds of `rows` carry a source's bits from bit `base` on. A row names a second and the bit, counted from `base`. -/
def CarryBits (src : Source) (base : Nat) (rows : List (BitVec 6 × Nat)) : Prop :=
  ∀ p ∈ rows, p.1.toNat < 60 ∧ p.2 < 4 ∧ slotOf p.1.toNat = .bit src (BitVec.twoPow 12 (base + p.2))

section
variable {s : State} {min : BitVec 6} {hour : BitVec 5} {doy : BitVec 9} {year2 : BitVec 7} {wday : BitVec 3}
  {src : Source} {rows : List (BitVec 6 × Nat)} {n : Nat}

/-- SYMFOR answers the bit of a digit at the seconds that carry it, whichever digit has its bit 0 at bit `base`. -/
theorem exec_symfor_digit {base digit : Nat} (hs : s.ReadyTimed) (hd : LegalDate min hour doy year2 wday)
    (hrows : CarryBits src base rows) (hbase : base ≤ 4)
    (hdigit : ∀ i < 4,
      (sourceValue (minuteStart min hour doy year2 wday) src).toNat.testBit (base + i) = digit.testBit i) :
    ∀ p ∈ rows, exec (.symfor p.1 min hour doy year2 wday) s =
      .next { s with result := some (.symbol (if digit.testBit p.2 then .one else .zero)) } := by
  intro p hp
  obtain ⟨hsec, hbit, hrow⟩ := hrows p hp
  rw [exec_symfor hs hsec hd, frameOf_bitRow (by omega) hrow, hdigit _ hbit, State.withResult]

/-- SYMFOR answers the bits of the tens digit at the seconds of bits 4 and up. -/
theorem exec_symfor_tens (hs : s.ReadyTimed) (hd : LegalDate min hour doy year2 wday) (hrows : CarryBits src 4 rows)
    (hv : sourceValue (minuteStart min hour doy year2 wday) src = toBcd n) (hn : n < 100) :
    ∀ p ∈ rows, exec (.symfor p.1 min hour doy year2 wday) s =
      .next { s with result := some (.symbol (if (n / 10).testBit p.2 then .one else .zero)) } :=
  exec_symfor_digit hs hd hrows le_rfl fun i _ => hv ▸ toBcd_testBit_tens hn i

/-- SYMFOR answers the bits of the units digit at the seconds of bits 0 to 3. -/
theorem exec_symfor_units (hs : s.ReadyTimed) (hd : LegalDate min hour doy year2 wday) (hrows : CarryBits src 0 rows)
    (hv : sourceValue (minuteStart min hour doy year2 wday) src = toBcd n) (hn : n < 100) :
    ∀ p ∈ rows, exec (.symfor p.1 min hour doy year2 wday) s =
      .next { s with result := some (.symbol (if (n % 10).testBit p.2 then .one else .zero)) } :=
  exec_symfor_digit hs hd hrows (Nat.zero_le 4) fun i hi => by rw [hv, Nat.zero_add, toBcd_testBit_units hn hi]

end

/-! ### The minute's and the hour's seconds -/

/-- The minute's tens at its seconds (41_frame_encoder.md R123). -/
theorem carryBits_minute_tens : CarryBits .minute 4 [(1#6, 2), (2#6, 1), (3#6, 0)] := by unfold CarryBits; decide

/-- The minute's units at its seconds (41_frame_encoder.md R123). -/
theorem carryBits_minute_units : CarryBits .minute 0 [(5#6, 3), (6#6, 2), (7#6, 1), (8#6, 0)] := by
  unfold CarryBits; decide

/-- The hour's tens at its seconds (41_frame_encoder.md R124). -/
theorem carryBits_hour_tens : CarryBits .hour 4 [(12#6, 1), (13#6, 0)] := by unfold CarryBits; decide

/-- The hour's units at its seconds (41_frame_encoder.md R124). -/
theorem carryBits_hour_units : CarryBits .hour 0 [(15#6, 3), (16#6, 2), (17#6, 1), (18#6, 0)] := by
  unfold CarryBits; decide

/-- Settles O19: each group of seconds carries a digit of the value under test. -/
theorem minuteAndHourBits : Obligations.MinuteAndHourBits := by
  intro s min hour doy year2 wday hs hd
  have ⟨hmin, hhour, _⟩ := hd
  have hm : min.toNat < 100 := by omega
  have hh : hour.toNat < 100 := by omega
  exact ⟨exec_symfor_tens hs hd carryBits_minute_tens rfl hm, exec_symfor_units hs hd carryBits_minute_units rfl hm,
    exec_symfor_tens hs hd carryBits_hour_tens rfl hh, exec_symfor_units hs hd carryBits_hour_units rfl hh⟩

end Sys2Proof.Machine

/-! PROOFS. What an enabled tick leaves (O27), a second of ticks with the symbol held (O30) and a symbol written late (O32).
`exec_tick_afterSubslot` says what one tick does by the number of its subslot; `ticks_succ` runs it from the start of a
second, past the wrap at 10 as well. -/

namespace Sys2Proof.Machine

/-- The state an enabled tick of subslot `k` leaves when it reads the symbol `x` (42_carrier_modulator.md R156, R158). -/
def State.afterSubslot (s : State) (x : Symbol) (k : Nat) : State :=
  { s with carrier := waveform x k, led := waveform x k, sub := BitVec.ofNat 4 (k + 1), result := none }

/-- A tick leaves the state of its effective subslot. -/
theorem tickWith_withResult (s : State) (x : Symbol) :
    (s.tickWith x).withResult none = s.afterSubslot x (effectiveSub s.sub).toNat := by
  have hsub : effectiveSub s.sub + 1#4 = BitVec.ofNat 4 ((effectiveSub s.sub).toNat + 1) := by
    rw [BitVec.ofNat_add, BitVec.ofNat_toNat, BitVec.setWidth_eq]
  simp only [State.tickWith, State.latch, State.setSub, State.withResult, State.afterSubslot, levelAt_eq_waveform, hsub]

section
variable {s : State} {x : Symbol}

/-- An enabled tick with a written symbol leaves the state of its subslot, the stored counter wrapped at 10. -/
theorem exec_tick_afterSubslot {k : Nat} (hr : s.run = true) (hp : s.pwr = .awake) (hx : s.sym = some x)
    (hk : (effectiveSub s.sub).toNat = k) : exec .tick s = .next (s.afterSubslot x k) := by
  rw [exec_tick_written hr hp hx, tickWith_withResult, hk]

/-- SYMWR and the tick after it leave what a tick of the new symbol does, and that symbol in the cell. -/
theorem execAll_symwr_tick_afterSubslot {k : Nat} (hr : s.run = true) (hp : s.pwr = .awake) (y : Symbol)
    (hk : (effectiveSub s.sub).toNat = k) :
    execAll [.symwr y.code, .tick] s = .next ((s.writeSym y).afterSubslot y k) := by
  rw [execAll_symwr_tick hr hp, tickWith_withResult, ← hk]; rfl

/-- At the start of a second, SUB at 0 or 10, the effective subslot is 0 (42_carrier_modulator.md R163). -/
theorem effectiveSub_start (hsub : s.sub = 0#4 ∨ s.sub = 10#4) : (effectiveSub s.sub).toNat = 0 := by
  rcases hsub with h | h <;> rw [h] <;> rfl

/-- The effective subslots follow each other modulo 10. -/
theorem effectiveSub_afterSubslot {k : Nat} (hk : k < 10) :
    (effectiveSub (s.afterSubslot x k).sub).toNat = (k + 1) % 10 := by
  rw [effectiveSub_toNat, State.afterSubslot, BitVec.toNat_ofNat]
  split <;> omega

/-- From the start of a second with the symbol held, tick number `n + 1` is that of subslot `n mod 10`. -/
theorem ticks_succ (hr : s.run = true) (hp : s.pwr = .awake) (hx : s.sym = some x)
    (hsub : s.sub = 0#4 ∨ s.sub = 10#4) (n : Nat) : ticks (n + 1) s = .next (s.afterSubslot x (n % 10)) := by
  induction n with
  | zero => exact execAll_cons .tick [] (exec_tick_afterSubslot hr hp hx (effectiveSub_start hsub))
  | succ n ih =>
    have hk : (effectiveSub (s.afterSubslot x (n % 10)).sub).toNat = (n + 1) % 10 :=
      (effectiveSub_afterSubslot (Nat.mod_lt n (by decide))).trans (Nat.mod_add_mod n 10 1)
    calc ticks (n + 1 + 1) s = execAll (List.replicate (n + 1) .tick ++ [.tick]) s := by
          rw [ticks, List.replicate_succ']
      _ = execAll [.tick] (s.afterSubslot x (n % 10)) := execAll_append _ _ ih
      _ = .next (s.afterSubslot x ((n + 1) % 10)) := execAll_cons .tick [] (exec_tick_afterSubslot hr hp hx hk)

end

/-- Every symbol is ON in subslots 0 and 1 (42_carrier_modulator.md R158). -/
theorem waveform_eq_on_of_lt_two (x : Symbol) {k : Nat} (hk : k < 2) : waveform x k = .on := by
  unfold waveform
  rw [if_pos]
  cases x <;> simp only <;> omega

/-- Settles O27: the tick reads the stored counter wrapped at 10. -/
theorem tickEffect : Obligations.TickEffect :=
  fun s _ hr hp hx => exec_tick_afterSubslot hr hp hx (effectiveSub_toNat s.sub)

/-- Settles O30: below 10 the number of the tick is its subslot. -/
theorem oneSecondOfOutput : Obligations.OneSecondOfOutput := by
  intro s x hr hp hx hsub k hk
  have ht := ticks_succ hr hp hx hsub k
  rw [Nat.mod_eq_of_lt hk] at ht
  exact ⟨_, ht, rfl, rfl, rfl⟩

/-- Settles O32: the ticks before subslot 2 are ON whatever the symbol, so the state after them holds no trace of when the
symbol was written. -/
theorem lateWriteSameWaveform : Obligations.LateWriteSameWaveform := by
  intro s x y hr hp hx hsub
  have hon : ∀ k < 2, waveform y k = waveform x k := fun k hk =>
    (waveform_eq_on_of_lt_two y hk).trans (waveform_eq_on_of_lt_two x hk).symm
  have hnext : ∀ (u : State) (z : Symbol), (effectiveSub (u.afterSubslot z 0).sub).toNat = 1 := fun _ _ =>
    effectiveSub_afterSubslot (by decide)
  have ha : execAll [.symwr y.code, .tick] s = .next ((s.writeSym y).afterSubslot y 0) :=
    execAll_symwr_tick_afterSubslot hr hp y (effectiveSub_start hsub)
  have hb : execAll [.symwr y.code, .tick, .tick] s = .next ((s.writeSym y).afterSubslot y 1) :=
    (execAll_append _ [.tick] ha).trans (execAll_cons _ [] (exec_tick_afterSubslot hr hp rfl (hnext _ y)))
  have hc : exec .tick s = .next (s.afterSubslot x 0) := exec_tick_afterSubslot hr hp hx (effectiveSub_start hsub)
  have hd : execAll [.tick, .symwr y.code, .tick] s = .next ((s.writeSym y).afterSubslot y 1) :=
    (execAll_cons _ _ hc).trans (execAll_symwr_tick_afterSubslot (s := s.afterSubslot x 0) hr hp y (hnext s x))
  have he : execAll [.tick, .tick] s = .next (s.afterSubslot x 1) := ticks_succ hr hp hx hsub 1
  have hf : execAll [.tick, .tick, .symwr y.code] s = .next ((s.writeSym y).afterSubslot x 1) :=
    (execAll_append _ [.symwr y.code] he).trans (execAll_cons _ [] (exec_symwr_code (s := s.afterSubslot x 1) hp y))
  refine ⟨_, _, _, _, _, _, ha, hb, execAll_cons _ [] hc, hd, he, hf, hon 0 (by decide), rfl, hon 1 (by decide), rfl, ?_⟩
  simp only [State.afterSubslot, hon 1 (by decide)]

end Sys2Proof.Machine

/-! PROOFS. The scheduler: the boot test (O39), the two durations and the rollover rule (O40, O41, O42), and SCHED as the
sequence of its parts (O43). The first lemmas say what each operation with the fields of a time of day answers. -/

namespace Sys2Proof.Machine

section
variable {s : State} {hour : BitVec 5} {min sec : BitVec 6} {i : Instr}

/-! ### Operations on a time of day -/

/-- An operation on a legal time, the device awake and the time trusted, is its body. -/
theorem timedOp_legalTime {body : Out} (hi : operandsOf i = hmsOperands hour min sec) (hs : s.ReadyTimed)
    (hl : LegalTime hour min sec) : timedOp i s body = body := by
  obtain ⟨hp, ht⟩ := hs
  have hnone : firstIllegal i = none := by rw [firstIllegal, hi]; exact (firstIllegal_hms hour min sec).2 hl
  exact timedOp_legal hp hnone ht

/-- An operation on an illegal time faults with OperandRange (30_encoding.md R74). -/
theorem timedOp_illegalTime {body : Out} (hi : operandsOf i = hmsOperands hour min sec) (hp : s.pwr = .awake)
    (hl : ¬LegalTime hour min sec) : ∃ f v, timedOp i s body = .fault (.operandRange f v) := by
  have hsome : firstIllegal i ≠ none := by
    rw [firstIllegal, hi]; exact fun h => hl ((firstIllegal_hms hour min sec).1 h)
  obtain ⟨o, ho⟩ := Option.ne_none_iff_exists'.1 hsome
  exact ⟨o.field, o.value, controlOp_illegal hp ho⟩

/-- The word of an operation of format HMS as a number (30_encoding.md R71). -/
theorem encode_hms_toNat {o : Op} {base : Nat} (ho : i.op = o) (hbase : o.code.toNat * 2 ^ 36 = base)
    (hi : operandField i = hmsField hour min sec) :
    (encode i).toNat = base + hour.toNat * 2 ^ 12 + min.toNat * 2 ^ 6 + sec.toNat := by
  have hfield : hmsField hour min sec = hour.toNat * 2 ^ 12 + min.toNat * 2 ^ 6 + sec.toNat := by
    simp only [hmsField, Nat.shiftLeft_eq]
  have hlt : hmsField hour min sec < 2 ^ 36 := by
    have := hour.isLt; have := min.isLt; have := sec.isLt
    omega
  rw [encode, ho, hi, wordOf_toNat _ hlt, hbase, hfield, Nat.add_assoc, Nat.add_assoc, Nat.add_assoc]

/-- The window of a time of day in a state (43_deadline_scheduler.md R181). -/
def State.windowAt (s : State) (h m : Nat) : Window := classify s.cfg h m s.uptime.toNat s.wake

theorem exec_classify (hs : s.ReadyTimed) (hl : LegalTime hour min sec) :
    exec (.classify hour min sec) s = .next (s.withResult (some (.window (s.windowAt hour.toNat min.toNat)))) :=
  timedOp_legalTime rfl hs hl

theorem exec_sechour (hs : s.ReadyTimed) (hl : LegalTime hour min sec) :
    exec (.sechour hour min sec) s =
      .next (s.withResult (some (.seconds (BitVec.ofNat 17 (secondsToHour min.toNat sec.toNat))))) :=
  timedOp_legalTime rfl hs hl

theorem exec_secdaily (hs : s.ReadyTimed) (hl : LegalTime hour min sec) :
    exec (.secdaily hour min sec) s =
      .next (s.withResult (some (.seconds
        (BitVec.ofNat 17 (secondsToDaily s.cfg hour.toNat min.toNat sec.toNat))))) :=
  timedOp_legalTime rfl hs hl

theorem exec_sched (hs : s.ReadyTimed) (hl : LegalTime hour min sec) :
    exec (.sched hour min sec) s =
      .next (s.schedAct (s.windowAt hour.toNat min.toNat) hour.toNat min.toNat sec.toNat) :=
  timedOp_legalTime rfl hs hl

theorem exec_classify_next {t : State} (h : exec (.classify hour min sec) s = .next t) :
    t = s.withResult (some (.window (s.windowAt hour.toNat min.toNat))) := by
  obtain ⟨-, -, -, hb⟩ := timedOp_next h
  cases hb; rfl

theorem exec_sched_next {t : State} (h : exec (.sched hour min sec) s = .next t) :
    t = s.schedAct (s.windowAt hour.toNat min.toNat) hour.toNat min.toNat sec.toNat := by
  obtain ⟨-, -, -, hb⟩ := timedOp_next h
  cases hb; rfl

/-! ### The boot test -/

/-- The boot test comes before every other test (43_deadline_scheduler.md R188). -/
theorem windowAt_eq_bootTest (hw : s.wake = false) (hu : s.uptime.toNat < s.cfg.bootTestMin.toNat * 60) (h m : Nat) :
    s.windowAt h m = .bootTest :=
  if_pos ⟨hu, hw⟩

/-- After a scheduled wake none of the tests gives the boot test (43_deadline_scheduler.md R188). -/
theorem windowAt_ne_bootTest (hw : s.wake = true) (h m : Nat) : s.windowAt h m ≠ .bootTest := by
  have hboot : ¬(s.uptime.toNat < s.cfg.bootTestMin.toNat * 60 ∧ s.wake = false) := by simp [hw]
  unfold State.windowAt classify
  rw [if_neg hboot]
  split_ifs <;> decide

/-! ### SCHED's action -/

/-- Where the attach does not fail, a transmitting SCHED leaves its window, no sleep and no seconds. -/
theorem schedTransmit_result (ha : s.attachFails = false) (w : Window) :
    (s.schedTransmit w).result = some (.sched w .none 0#17) := by
  simp [State.schedTransmit, ha]

/-- A transmitting SCHED whose attach fails leaves no result (60_exceptions.md R240). -/
theorem schedTransmit_result_of_attachFails (ha : s.attachFails = true) (w : Window) :
    (s.schedTransmit w).result = none := by
  obtain ⟨hr, hp⟩ : s.run = false ∧ s.ports.pwmAttachOk = false := by simpa [State.attachFails] using ha
  simp [State.schedTransmit, ha, startModulator_restarts hr hp]

/-- A transmitting SCHED ends as MODSTART does, but for the result. -/
theorem schedTransmit_withResult_none (s : State) (w : Window) :
    (s.schedTransmit w).withResult none = s.startModulator.withResult none := by
  unfold State.schedTransmit
  split <;> rfl

/-- A result that SCHED leaves names the window it was in. -/
theorem window_of_schedAct_result {w w' : Window} {k : SleepKind} {n : BitVec 17} {h m sec : Nat}
    (hres : (s.schedAct w h m sec).result = some (.sched w' k n)) : w' = w := by
  have transmit (hw : (s.schedTransmit w).result = some (.sched w' k n)) : w' = w := by
    cases ha : s.attachFails with
    | false => rw [schedTransmit_result ha] at hw; cases hw; rfl
    | true => rw [schedTransmit_result_of_attachFails ha] at hw; cases hw
  cases w with
  | bootTest => exact transmit hres
  | nightTransmit => exact transmit hres
  | nightIdle => cases hres; rfl
  | preMidnightHold => cases hres; rfl
  | daytimeSuspend => cases hres; rfl

end

/-- Settles O39: the boot test is the first test, it asks for WAKE = 0, and SCHED's result names the window. -/
theorem bootTestTieBreak : Obligations.BootTestTieBreak := by
  intro s t u hour min sec hc hd
  obtain rfl := exec_classify_next hc
  obtain rfl := exec_sched_next hd
  refine ⟨fun hw hu => ?_, fun hw => ?_⟩
  · rw [windowAt_eq_bootTest hw hu]
    exact ⟨rfl, fun ha => schedTransmit_result ha _⟩
  · have hne := windowAt_ne_bootTest hw hour.toNat min.toNat
    refine ⟨fun h => hne ?_, fun k n h => hne (window_of_schedAct_result h).symm⟩
    simpa using h

/-! ### The durations -/

theorem secondsToHour_toNat {m sec : Nat} (hm : m < 60) (hs : sec < 60) :
    (BitVec.ofNat 17 (secondsToHour m sec)).toNat = secondsToHour m sec :=
  duration_toNat ((secondsToHour_range hm hs).2.trans (by decide))

theorem secondsToDaily_toNat (c : ScheduleConfig) {h m sec : Nat} (hh : h < 24) (hm : m < 60) (hs : sec < 60) :
    (BitVec.ofNat 17 (secondsToDaily c h m sec)).toNat = secondsToDaily c h m sec :=
  duration_toNat (secondsToDaily_range c hh hm hs).2

/-- Settles O40: the seconds left of the hour fit the result's 17 bits. -/
theorem sechourResult : Obligations.SechourResult := by
  refine ⟨fun s hour min sec hs hl => ?_, fun s hour min sec hp hl => timedOp_illegalTime rfl hp hl,
    fun hour min sec => encode_hms_toNat (o := .sechour) rfl (by decide) rfl, refusesHighBits .sechour⟩
  have ⟨_, hm, hsec⟩ := hl
  have hn := secondsToHour_toNat hm hsec
  refine ⟨_, exec_sechour hs hl, hn, ?_⟩
  rw [hn]; exact secondsToHour_range hm hsec

/-- Settles O41: the seconds to the daily target fit the result's 17 bits. -/
theorem secdailyResult : Obligations.SecdailyResult := by
  refine ⟨fun s hour min sec hs hl => ?_, fun s hour min sec hp hl => timedOp_illegalTime rfl hp hl,
    fun hour min sec => encode_hms_toNat (o := .secdaily) rfl (by decide) rfl, refusesHighBits .secdaily⟩
  have ⟨hh, hm, hsec⟩ := hl
  have hn := secondsToDaily_toNat s.cfg hh hm hsec
  refine ⟨_, exec_secdaily hs hl, hn, ?_⟩
  rw [hn]; exact secondsToDaily_range s.cfg hh hm hsec

/-- The hour boundary is the target 0 of a clock of 3600 seconds (43_deadline_scheduler.md R197). -/
theorem secondsToHour_eq_untilNext (m sec : Nat) : secondsToHour m sec = untilNext (60 * m + sec) 0 3600 := by
  rw [untilNext, if_pos (Nat.zero_le _), Nat.zero_add, secondsToHour]

/-- The daily wake is a target of a clock of 86400 seconds (43_deadline_scheduler.md R197). -/
theorem secondsToDaily_eq_untilNext (c : ScheduleConfig) (h m sec : Nat) :
    secondsToDaily c h m sec = untilNext (3600 * h + 60 * m + sec) (dailyTarget c) 86400 := rfl

/-- Within one turn of the clock `untilNext` is the one number of seconds that leads to the target: it turns over exactly
when the target is not ahead. -/
theorem add_mod_eq_iff_eq_untilNext {now target period d : Nat} (hnow : now < period) (htarget : target < period)
    (hd : 1 ≤ d) (hd' : d ≤ period) : (now + d) % period = target ↔ d = untilNext now target period := by
  unfold untilNext
  by_cases hturn : now + d < period
  · rw [Nat.mod_eq_of_lt hturn]
    split <;> omega
  · rw [Nat.mod_eq_sub_mod (Nat.not_lt.1 hturn), Nat.mod_eq_of_lt (by omega)]
    split <;> omega

/-- Settles O42: both durations are `untilNext` on a clock of their period. -/
theorem rolloverRule : Obligations.RolloverRule := by
  intro s hour min sec hs hl
  have ⟨hh, hm, hsec⟩ := hl
  have hhour := (secondsToHour_toNat hm hsec).trans (secondsToHour_eq_untilNext _ _)
  have hdaily := (secondsToDaily_toNat s.cfg hh hm hsec).trans (secondsToDaily_eq_untilNext _ _ _ _)
  refine ⟨_, _, exec_sechour hs hl, exec_secdaily hs hl, hhour, hdaily, fun d hd hd' => ?_, fun d hd hd' => ?_⟩
  · rw [hhour]; exact add_mod_eq_iff_eq_untilNext (by omega) (by decide) hd hd'
  · rw [hdaily]; exact add_mod_eq_iff_eq_untilNext (by omega) (dailyTarget_lt s.cfg) hd hd'

/-! ### SCHED and its parts -/

section
variable {s : State} {n : BitVec 17}

/-- MODSTART on an awake device (42_carrier_modulator.md R153). -/
theorem exec_modstart (hp : s.pwr = .awake) : exec .modstart s = .next (s.startModulator.withResult none) :=
  controlOp_legal (i := .modstart) hp rfl

/-- MODSTOP on an awake device (42_carrier_modulator.md R155). -/
theorem exec_modstop (hp : s.pwr = .awake) : exec .modstop s = .next (s.stopModulator.withResult none) :=
  controlOp_legal (i := .modstop) hp rfl

/-- SLEEPCP of a legal duration on a stopped modulator (44_sleep_interface.md R221). -/
theorem exec_sleepcp (hp : s.pwr = .awake) (hr : s.run = false) (hn : n.toNat ≤ 86400) :
    exec (.sleepcp n) s = .next ((s.sleepCp n).withResult none) :=
  sleepOp_legal hp ((firstIllegal_none_iff_wf (.sleepcp n)).2 (by simpa [Instr.wf] using hn)) hr

/-- SLEEPDEEP of a legal duration on a stopped modulator (44_sleep_interface.md R225). -/
theorem exec_sleepdeep (hp : s.pwr = .awake) (hr : s.run = false) (hn : 1 ≤ n.toNat ∧ n.toNat ≤ 86400) :
    exec (.sleepdeep n) s = .next ((s.sleepDeep n).withResult none) :=
  sleepOp_legal hp ((firstIllegal_none_iff_wf (.sleepdeep n)).2 (by simpa [Instr.wf] using hn)) hr

/-- MODSTOP and then SLEEPCP: the stopped modulator is what SLEEPCP asks for (44_sleep_interface.md R229). -/
theorem execAll_modstop_sleepcp (hp : s.pwr = .awake) (hn : n.toNat ≤ 86400) :
    execAll [.modstop, .sleepcp n] s = .next (((s.stopModulator.withResult none).sleepCp n).withResult none) :=
  (execAll_cons _ _ (exec_modstop hp)).trans (execAll_cons _ [] (exec_sleepcp (by simp [hp]) (by simp) hn))

/-- MODSTOP and then SLEEPDEEP: the stopped modulator is what SLEEPDEEP asks for (44_sleep_interface.md R229). -/
theorem execAll_modstop_sleepdeep (hp : s.pwr = .awake) (hn : 1 ≤ n.toNat ∧ n.toNat ≤ 86400) :
    execAll [.modstop, .sleepdeep n] s = .next (((s.stopModulator.withResult none).sleepDeep n).withResult none) :=
  (execAll_cons _ _ (exec_modstop hp)).trans (execAll_cons _ [] (exec_sleepdeep (by simp [hp]) (by simp) hn))

/-- For a second or more, SCHED's stop and sleep leave the halted state with SCHED's result. -/
theorem schedSleepCp_eq (hn : 1 ≤ n.toNat) (w : Window) :
    s.schedSleepCp w n = (s.stopModulator.enterSleep .sleepCp n).withResult (some (.sched w .cp n)) := by
  rw [State.schedSleepCp, sleepCp_pos hn]

theorem schedAct_transmit {w : Window} (hw : w = .bootTest ∨ w = .nightTransmit) (h m sec : Nat) :
    s.schedAct w h m sec = s.schedTransmit w := by
  rcases hw with rfl | rfl <;> rfl

theorem schedAct_sleepCp {w : Window} (hw : w = .preMidnightHold ∨ w = .nightIdle) (h m sec : Nat) :
    s.schedAct w h m sec = s.schedSleepCp w (BitVec.ofNat 17 (secondsToHour m sec)) := by
  rcases hw with rfl | rfl <;> rfl

theorem attachFails_eq_false (h : s.run = true ∨ s.ports.pwmAttachOk = true) : s.attachFails = false := by
  rcases h with h | h <;> simp [State.attachFails, h]

end

/-- Settles O43, window by window: a transmitting window starts, the others stop and then sleep for the duration. -/
theorem schedIsItsParts : Obligations.SchedIsItsParts := by
  intro s hour min sec hs hl
  have ⟨hp, _⟩ := hs
  have ⟨hh, hm, hsec⟩ := hl
  refine ⟨_, _, exec_classify hs hl, exec_sched hs hl, fun hw => ?_, fun hw => ?_, fun hw => ?_⟩
  · rw [schedAct_transmit hw]
    exact ⟨_, exec_modstart hp, schedTransmit_withResult_none s _,
      fun h => schedTransmit_result (attachFails_eq_false h) _⟩
  · obtain ⟨hpos, hmax⟩ := secondsToHour_range hm hsec
    rw [← secondsToHour_toNat hm hsec] at hpos hmax
    rw [schedAct_sleepCp hw, schedSleepCp_eq hpos]
    refine ⟨_, _, exec_sechour hs hl, execAll_modstop_sleepcp hp (hmax.trans (by decide)), ?_, rfl, rfl⟩
    rw [sleepCp_pos hpos]; rfl
  · have hrange := secondsToDaily_range s.cfg hh hm hsec
    rw [← secondsToDaily_toNat s.cfg hh hm hsec] at hrange
    rw [hw]
    exact ⟨_, _, exec_secdaily hs hl, execAll_modstop_sleepdeep hp hrange, rfl, rfl, rfl⟩

end Sys2Proof.Machine

/-! PROOFS. No carrier output into a halt (O55). The lemmas say how a step can leave the device halted: the halt goes on, or
the step entered a sleep, and then it stopped the modulator first or found it stopped. -/

namespace Sys2Proof.Machine

section
variable {s t : State}

/-- The state is that of a halt just entered from `s`: the modulator stopped, then the wake timer armed
(44_sleep_interface.md R229). -/
def State.EntersHalt (s t : State) : Prop := ∃ p n r, t = (s.stopModulator.enterSleep p n).withResult r

/-- On a stopped modulator a sleep alone enters a halt. -/
theorem entersHalt_of_stopped (hr : s.run = false) (p : Power) (n : BitVec 17) (r : Option Result) :
    s.EntersHalt ((s.enterSleep p n).withResult r) :=
  ⟨p, n, r, by rw [stopModulator_stopped hr]⟩

/-! ### What wakes or sleeps -/

theorem startModulator_awake (hp : s.pwr = .awake) : s.startModulator.pwr = .awake := by
  rcases startModulator_cases s with ⟨-, h⟩ | ⟨-, -, h⟩ | ⟨-, -, h⟩ <;> simp [h, hp]

/-- A clock-preserving sleep halts an awake device only by arming the timer; below one second it does nothing. -/
theorem sleepCp_of_asleep {n : BitVec 17} (hp : s.pwr = .awake) (ha : (s.sleepCp n).pwr ≠ .awake) :
    s.sleepCp n = s.enterSleep .sleepCp n := by
  unfold State.sleepCp at ha ⊢
  split at ha
  · exact absurd hp ha
  · exact if_neg ‹_›

/-- A wake event that leaves the device halted changes nothing (44_sleep_interface.md R226). -/
theorem wakeBy_of_asleep {src : WakeSource} (ha : (s.wakeBy src).pwr ≠ .awake) : s.wakeBy src = s := by
  cases hp : s.pwr with
  | awake => exact wakeBy_awake hp src
  | sleepCp => exact absurd rfl (wakeBy_sleepCp hp src ▸ ha)
  | sleepDeep =>
    cases src with
    | timer => exact absurd rfl (wakeBy_sleepDeep_timer hp ▸ ha)
    | external => exact wakeBy_sleepDeep_external hp

theorem schedTransmit_awake (hp : s.pwr = .awake) (w : Window) : (s.schedTransmit w).pwr = .awake := by
  unfold State.schedTransmit
  split <;> simp [startModulator_awake hp]

/-- A SCHED that halts an awake device stops the modulator first (43_deadline_scheduler.md R200). -/
theorem schedAct_entersHalt {w : Window} {h m sec : Nat} (hp : s.pwr = .awake)
    (ha : (s.schedAct w h m sec).pwr ≠ .awake) : s.EntersHalt (s.schedAct w h m sec) := by
  have transmit (hw : (s.schedTransmit w).pwr ≠ .awake) : s.EntersHalt (s.schedTransmit w) :=
    absurd (schedTransmit_awake hp w) hw
  have sleep {n : BitVec 17} (hw : (s.schedSleepCp w n).pwr ≠ .awake) : s.EntersHalt (s.schedSleepCp w n) :=
    ⟨.sleepCp, n, _, by rw [State.schedSleepCp, sleepCp_of_asleep (by simp [hp]) hw]⟩
  cases w with
  | bootTest => exact transmit ha
  | nightTransmit => exact transmit ha
  | preMidnightHold => exact sleep ha
  | nightIdle => exact sleep ha
  | daytimeSuspend => exact ⟨.sleepDeep, _, _, rfl⟩

/-! ### What leaves the device halted -/

/-- An operation that leaves the device halted changed nothing or entered the halt. -/
theorem exec_of_asleep {i : Instr} (h : exec i s = .next t) (ha : t.pwr ≠ .awake) : t = s ∨ s.EntersHalt t := by
  rcases exec_next_cases h with ⟨-, -, rfl⟩ | ⟨-, hp, r, rfl⟩ | ⟨x, -, hp, rfl⟩ | ⟨-, hp, rfl⟩ | ⟨-, hp, rfl⟩ |
    ⟨-, he, x, -, rfl⟩ | ⟨hour, min, sec, -, hp, -, -, rfl⟩ | ⟨n, -, hp, hr, -, rfl⟩ | ⟨n, -, -, hr, -, rfl⟩
  · exact .inl rfl
  · exact absurd hp ha
  · exact absurd hp ha
  · exact absurd (startModulator_awake hp) ha
  · exact absurd ((stopModulator_pwr s).trans hp) ha
  · exact absurd ((tickEnabled_iff s).1 he).2 ha
  · exact .inr (schedAct_entersHalt hp ha)
  · rw [sleepCp_of_asleep hp ha]
    exact .inr (entersHalt_of_stopped hr _ n none)
  · exact .inr (entersHalt_of_stopped hr _ n none)

/-- A step that leaves the device halted either has no effect but to take an event, or it entered the halt. -/
theorem step_of_asleep (h : step s = .next t) (ha : t.pwr ≠ .awake) :
    t = s ∨ ∃ inp rest, t = s.sample inp rest ∨ (s.sample inp rest).EntersHalt t := by
  rcases step_next_cases h with ⟨-, rfl⟩ | ⟨inp, rest, -, hevent⟩
  · exact .inl rfl
  · refine .inr ⟨inp, rest, ?_⟩
    rcases hevent with ⟨w, i, -, -, -, he⟩ | ⟨-, he⟩ | ⟨src, -, rfl⟩ | ⟨c, -, rfl⟩
    · exact exec_of_asleep he ha
    · exact exec_of_asleep he ha
    · exact .inl (wakeBy_of_asleep ha)
    · exact absurd rfl ha

/-! ### The silence of a halt -/

/-- The modulator is stopped and nothing drives the carrier (60_exceptions.md R272). -/
def State.Silent (s : State) : Prop := s.run = false ∧ s.carrier = .off ∧ s.pwmDuty = 0

theorem silent_iff : s.Silent ↔ s.run = false ∧ s.carrier = .off := by
  constructor
  · rintro ⟨hr, hc, -⟩
    exact ⟨hr, hc⟩
  · rintro ⟨hr, hc⟩
    exact ⟨hr, hc, by rw [State.pwmDuty, hc]⟩

/-- Stopping forces the idle level (42_carrier_modulator.md R155); a stopped modulator is at it already. -/
theorem stopModulator_silent (hoff : s.run = false → s.carrier = .off) : s.stopModulator.Silent := by
  refine silent_iff.2 ⟨stopModulator_run s, ?_⟩
  cases hr : s.run with
  | false => rw [stopModulator_stopped hr, hoff hr]
  | true => rw [stopModulator_running hr, State.latch_carrier]

theorem State.EntersHalt.silent (h : s.EntersHalt t) (hoff : s.run = false → s.carrier = .off) : t.Silent := by
  obtain ⟨p, n, r, rfl⟩ := h
  exact stopModulator_silent hoff

theorem State.Inv.silent (hi : s.Inv) (ha : s.pwr ≠ .awake) : s.Silent :=
  silent_iff.2 ⟨hi.asleepIsStopped ha, hi.stoppedIsOff (hi.asleepIsStopped ha)⟩

end

/-- Settles O55: a halt that goes on is silent by the invariant, a halt just entered by the stop before it. -/
theorem noCarrierIntoSleep : Obligations.NoCarrierIntoSleep := by
  intro s t hi h ha
  rcases step_of_asleep h ha with rfl | ⟨inp, rest, rfl | hhalt⟩
  · exact hi.silent ha
  · exact hi.silent ha
  · exact hhalt.silent hi.stoppedIsOff

end Sys2Proof.Machine

/-! PROOFS. Who writes what (O53), the configuration kept by every step (O52) and the external resets (O48). The frame of an
operation is built from the frames of the shared operations it consists of, one after the other. -/

namespace Sys2Proof.Machine

section
variable {o : Op} {s t u : State}

/-! ### What a reset of another state leaves -/

/-- Of the state before it, a reset leaves the configuration only. -/
theorem IsResetOf.of_cfg_eq {wake : Bool} (h : IsResetOf u t wake) (hc : u.cfg = s.cfg) : IsResetOf s t wake :=
  { h with cfg := h.cfg.trans hc }

/-- A result is no part of what a reset leaves. -/
theorem IsResetOf.withResult {wake : Bool} (h : IsResetOf s t wake) (r : Option Result) :
    IsResetOf s (t.withResult r) wake :=
  { h with }

/-! ### Frames -/

/-- What no operation writes: the ports but `USEC`, `WAKE`, the reset cause, `U`, the configuration and what the environment
will do (10_state.md R20, R26, R27, R32). -/
def State.unowned (s : State) :
    Bool × Bool × Bool × ResetCause × BitVec 32 × ScheduleConfig × List Input × List Input :=
  (s.ports.pwmAttachOk, s.ports.timeTrusted, s.wake, s.resetCause, s.uptime, s.cfg, s.schedule, s.cycle)

theorem unowned_eq_iff : t.unowned = s.unowned ↔
    t.ports.pwmAttachOk = s.ports.pwmAttachOk ∧ t.ports.timeTrusted = s.ports.timeTrusted ∧ t.wake = s.wake ∧
      t.resetCause = s.resetCause ∧ t.uptime = s.uptime ∧ t.cfg = s.cfg ∧ t.schedule = s.schedule ∧
      t.cycle = s.cycle := by
  simp only [State.unowned, Prod.mk.injEq]

/-- `t` differs from `s` only in what the operation owns (70_reset_and_hazards.md R297). A field that an update leaves as it
is need not be mentioned. -/
structure WriteFrame (o : Op) (s t : State) : Prop where
  sym : t.sym ≠ s.sym → o = .symwr := by exact fun h => absurd rfl h
  sub : t.sub ≠ s.sub → o ∈ [Op.tick, .modstart, .sched] := by exact fun h => absurd rfl h
  carrier : t.carrier ≠ s.carrier → o ∈ [Op.tick, .modstop, .sched] := by exact fun h => absurd rfl h
  led : t.led ≠ s.led → o ∈ [Op.tick, .modstop, .sched] := by exact fun h => absurd rfl h
  run : t.run ≠ s.run → o ∈ [Op.modstart, .modstop, .sched] := by exact fun h => absurd rfl h
  pwr : t.pwr ≠ s.pwr → o ∈ [Op.sleepcp, .sleepdeep, .sched] := by exact fun h => absurd rfl h
  wakeTimer : t.wakeTimer ≠ s.wakeTimer → o ∈ [Op.sleepcp, .sleepdeep, .sched] := by exact fun h => absurd rfl h
  usec : t.ports.usec ≠ s.ports.usec → o ∈ [Op.modstart, .sched] := by exact fun h => absurd rfl h
  unowned : t.unowned = s.unowned := by rfl

/-- What two changes after each other change, one of them changes. -/
theorem changed_trans {α : Type} {a b c : α} {p : Prop} (h₁ : b ≠ a → p) (h₂ : c ≠ b → p) : c ≠ a → p :=
  fun h => (h.ne_or_ne b).elim h₂ fun ha => h₁ ha.symm

theorem WriteFrame.refl (o : Op) (s : State) : WriteFrame o s s := {}

theorem WriteFrame.trans (h₁ : WriteFrame o s t) (h₂ : WriteFrame o t u) : WriteFrame o s u where
  sym := changed_trans h₁.sym h₂.sym
  sub := changed_trans h₁.sub h₂.sub
  carrier := changed_trans h₁.carrier h₂.carrier
  led := changed_trans h₁.led h₂.led
  run := changed_trans h₁.run h₂.run
  pwr := changed_trans h₁.pwr h₂.pwr
  wakeTimer := changed_trans h₁.wakeTimer h₂.wakeTimer
  usec := changed_trans h₁.usec h₂.usec
  unowned := h₂.unowned.trans h₁.unowned

/-! ### The frames of the updates -/

theorem WriteFrame.withResult (h : WriteFrame o s t) (r : Option Result) : WriteFrame o s (t.withResult r) := h.trans {}

theorem writeFrame_writeSym (s : State) (x : Symbol) : WriteFrame .symwr s (s.writeSym x) where
  sym _ := rfl

theorem writeFrame_setSub (ho : o ∈ [Op.tick, .modstart, .sched]) (s : State) (k : BitVec 4) :
    WriteFrame o s (s.setSub k) where
  sub _ := ho

theorem writeFrame_latch (ho : o ∈ [Op.tick, .modstop, .sched]) (s : State) (l : Level) :
    WriteFrame o s (s.latch l) where
  carrier _ := ho
  led _ := ho

theorem writeFrame_setRun (ho : o ∈ [Op.modstart, .modstop, .sched]) (s : State) (b : Bool) :
    WriteFrame o s (s.setRun b) where
  run _ := ho

theorem writeFrame_aligned (ho : o ∈ [Op.modstart, .sched]) (s : State) : WriteFrame o s s.aligned where
  usec _ := ho

theorem writeFrame_enterSleep (ho : o ∈ [Op.sleepcp, .sleepdeep, .sched]) (s : State) (p : Power) (n : BitVec 17) :
    WriteFrame o s (s.enterSleep p n) where
  pwr _ := ho
  wakeTimer _ := ho

/-! ### The frames of the shared operations -/

theorem writeFrame_tickWith (s : State) (x : Symbol) : WriteFrame .tick s (s.tickWith x) :=
  (writeFrame_latch (by decide) s _).trans (writeFrame_setSub (by decide) _ _)

theorem writeFrame_stopModulator (ho : o ∈ [Op.modstop, .sched]) (s : State) : WriteFrame o s s.stopModulator := by
  cases hr : s.run with
  | false => rw [stopModulator_stopped hr]; exact .refl o s
  | true =>
    rw [stopModulator_running hr]
    exact (writeFrame_setRun (List.mem_cons_of_mem _ ho) s _).trans (writeFrame_latch (List.mem_cons_of_mem _ ho) _ _)

theorem writeFrame_sleepCp (ho : o ∈ [Op.sleepcp, .sleepdeep, .sched]) (s : State) (n : BitVec 17) :
    WriteFrame o s (s.sleepCp n) := by
  unfold State.sleepCp
  split
  · exact .refl o s
  · exact writeFrame_enterSleep ho s _ n

/-- The device restarts because the PWM of a stopped modulator does not attach (60_exceptions.md R240). -/
def Restarts (s t : State) : Prop :=
  s.run = false ∧ s.ports.pwmAttachOk = false ∧ IsResetOf s t false ∧ t.resetCause = .restart

/-- Starting the modulator restarts the device or stays in its frame, whatever result is left. -/
theorem startModulator_restarts_or_writeFrame (ho : o ∈ [Op.modstart, .sched]) (s : State) (r : Option Result) :
    Restarts s (s.startModulator.withResult r) ∨ WriteFrame o s (s.startModulator.withResult r) := by
  rcases startModulator_cases s with ⟨-, h⟩ | ⟨-, -, h⟩ | ⟨hr, ha, h⟩
  · rw [h]; exact .inr ((WriteFrame.refl o s).withResult r)
  · have howners : [Op.modstart, .sched] ⊆ [Op.modstart, .modstop, .sched] := by decide
    rw [h]
    exact .inr ((((writeFrame_aligned ho s).trans (writeFrame_setSub (List.mem_cons_of_mem _ ho) _ _)).trans
      (writeFrame_setRun (howners ho) _ _)).withResult r)
  · have hp : s.ports.pwmAttachOk = false := by simpa [State.attachFails, hr] using ha
    rw [h]
    have hreset : IsResetOf s (s.aligned.resetBy .restart) false := (resetBy_isResetOf _ _).of_cfg_eq rfl
    exact .inl ⟨hr, hp, hreset.withResult r, rfl⟩

/-- A transmitting SCHED starts the modulator and leaves some result or none. -/
theorem schedTransmit_eq_startModulator (s : State) (w : Window) :
    ∃ r, s.schedTransmit w = s.startModulator.withResult r := by
  unfold State.schedTransmit
  split
  · exact ⟨s.startModulator.result, rfl⟩
  · exact ⟨_, rfl⟩

theorem schedAct_restarts_or_writeFrame (s : State) (w : Window) (h m sec : Nat) :
    Restarts s (s.schedAct w h m sec) ∨ WriteFrame .sched s (s.schedAct w h m sec) := by
  have transmit : Restarts s (s.schedTransmit w) ∨ WriteFrame .sched s (s.schedTransmit w) := by
    obtain ⟨r, hr⟩ := schedTransmit_eq_startModulator s w
    rw [hr]; exact startModulator_restarts_or_writeFrame (by decide) s r
  have stop : WriteFrame .sched s s.stopModulator := writeFrame_stopModulator (by decide) s
  have sleep (n : BitVec 17) : WriteFrame .sched s (s.schedSleepCp w n) :=
    (stop.trans (writeFrame_sleepCp (by decide) _ n)).withResult _
  cases w with
  | bootTest => exact transmit
  | nightTransmit => exact transmit
  | preMidnightHold => exact .inr (sleep _)
  | nightIdle => exact .inr (sleep _)
  | daytimeSuspend => exact .inr ((stop.trans (writeFrame_enterSleep (by decide) _ _ _)).withResult _)

/-- An operation stays in its frame, unless it is a MODSTART or a SCHED that restarts the device. -/
theorem exec_restarts_or_writeFrame {i : Instr} (h : exec i s = .next t) :
    (i.op ∈ [Op.modstart, .sched] ∧ Restarts s t) ∨ WriteFrame i.op s t := by
  rcases exec_next_cases h with ⟨-, -, rfl⟩ | ⟨-, -, r, rfl⟩ | ⟨x, rfl, -, rfl⟩ | ⟨rfl, -, rfl⟩ | ⟨rfl, -, rfl⟩ |
    ⟨rfl, -, x, -, rfl⟩ | ⟨hour, min, sec, rfl, -, -, -, rfl⟩ | ⟨n, rfl, -, -, -, rfl⟩ | ⟨n, rfl, -, -, -, rfl⟩
  · exact .inr (.refl _ _)
  · exact .inr ((WriteFrame.refl _ s).withResult _)
  · exact .inr ((writeFrame_writeSym s x).withResult none)
  · exact (startModulator_restarts_or_writeFrame (by decide) s none).imp_left fun hr => ⟨by decide, hr⟩
  · exact .inr ((writeFrame_stopModulator (by decide) s).withResult none)
  · exact .inr ((writeFrame_tickWith s x).withResult none)
  · exact (schedAct_restarts_or_writeFrame s _ _ _ _).imp_left fun hr => ⟨by simp [Instr.op], hr⟩
  · exact .inr ((writeFrame_sleepCp (by simp [Instr.op]) s n).withResult none)
  · exact .inr ((writeFrame_enterSleep (by simp [Instr.op]) s .sleepDeep n).withResult none)

end

/-- Settles O53: every operation that does not restart the device consists of updates of what it owns. -/
theorem operationFrames : Obligations.OperationFrames := by
  intro i s t h
  exact (exec_restarts_or_writeFrame h).imp_right fun hf =>
    ⟨hf.sym, hf.sub, hf.carrier, hf.led, hf.run, hf.pwr, hf.wakeTimer, hf.usec, unowned_eq_iff.1 hf.unowned⟩

/-! ### The configuration -/

section
variable {s t : State}

theorem WriteFrame.cfg {o : Op} (h : WriteFrame o s t) : t.cfg = s.cfg := by
  obtain ⟨-, -, -, -, -, hcfg, -, -⟩ := unowned_eq_iff.1 h.unowned
  exact hcfg

theorem exec_keeps_cfg {i : Instr} (h : exec i s = .next t) : t.cfg = s.cfg := by
  rcases exec_restarts_or_writeFrame h with ⟨-, -, -, hreset, -⟩ | hf
  · exact hreset.cfg
  · exact hf.cfg

@[simp] theorem wakeBy_cfg (s : State) (src : WakeSource) : (s.wakeBy src).cfg = s.cfg := by
  unfold State.wakeBy
  split <;> rfl

end

/-- Settles O52: an operation keeps the configuration by its frame, a restart as every reset does. -/
theorem configurationIsConstant : Obligations.ConfigurationIsConstant := by
  intro s t h
  rcases step_next_cases h with ⟨-, rfl⟩ | ⟨inp, rest, -, hevent⟩
  · rfl
  · rcases hevent with ⟨w, i, -, -, -, he⟩ | ⟨-, he⟩ | ⟨src, -, rfl⟩ | ⟨c, -, rfl⟩
    · exact (exec_keeps_cfg he).trans (s.sample_cfg inp rest)
    · exact (exec_keeps_cfg he).trans (s.sample_cfg inp rest)
    · exact wakeBy_cfg _ src
    · rfl

/-! ### The external resets -/

/-- A power-on or a manual reset is a reset of its kind, and its `wake_cause` is 0 (70_reset_and_hazards.md R280). -/
theorem handle_externalReset {e : Event} (he : e = .powerOn ∨ e = .manualReset) (s : State) :
    ∃ c, wakeCause c = false ∧ handle e s = .next (s.resetBy c) := by
  rcases he with rfl | rfl
  · exact ⟨.powerOn, rfl, rfl⟩
  · exact ⟨.manual, rfl, rfl⟩

/-- The state after a power-on reset is one that a reset leaves. -/
theorem reset_isResetOf_reset : IsResetOf State.reset State.reset false := resetBy_isResetOf State.reset .powerOn

/-- Settles O48: the step is the reset of the state the event finds, whose configuration and cycle are the old ones. -/
theorem resetFromAnyState : Obligations.ResetFromAnyState := by
  refine ⟨fun s inp rest hn he => ?_, reset_isResetOf_reset⟩
  obtain ⟨c, hc, hh⟩ := handle_externalReset he (s.sample inp rest)
  have hreset : IsResetOf s ((s.sample inp rest).resetBy c) (wakeCause c) := (resetBy_isResetOf _ c).of_cfg_eq rfl
  exact ⟨_, (step_of_nextInput hn).trans hh, hc ▸ hreset, rfl, rfl⟩

end Sys2Proof.Machine

/-! PROOFS. The encoder and the decoder are inverse to each other (O1, O2), words as numbers (O3), the selection by mask (O4)
and the words of the test vectors (O5). A word that an operation's fixed bits select is `wordOf` of some operands, so each
direction is a fact about the fields of `wordOf`. -/

namespace Sys2Proof

theorem openBits_le (f : Format) : openBits f ≤ 36 := by cases f <;> decide

theorem two_pow_openBits_le (f : Format) : 2 ^ openBits f ≤ 2 ^ 36 := Nat.pow_le_pow_right (by decide) (openBits_le f)

/-- The fixed bits of a word are an operation's exactly when it is the operation's word of some open bits. -/
theorem and_mask_eq_matchWord_iff_wordOf {w : Word} {o : Op} :
    w &&& o.format.mask = o.matchWord ↔ ∃ n < 2 ^ openBits o.format, w = wordOf o n := by
  have hpow : 2 ^ (36 - openBits o.format) * 2 ^ openBits o.format = 2 ^ 36 := by
    rw [← Nat.pow_add, Nat.sub_add_cancel (openBits_le _)]
  rw [and_mask_eq_matchWord]
  constructor
  · intro h
    have hn : w.toNat % 2 ^ openBits o.format < 2 ^ openBits o.format := Nat.mod_lt _ (Nat.two_pow_pos _)
    refine ⟨_, hn, BitVec.eq_of_toNat_eq ?_⟩
    rw [wordOf_toNat o (hn.trans_le (two_pow_openBits_le _)), ← h, Nat.div_add_mod']
  · rintro ⟨n, hn, rfl⟩
    rw [wordOf_toNat o (hn.trans_le (two_pow_openBits_le _)), ← hpow, ← Nat.mul_assoc, Nat.add_comm,
      Nat.add_mul_div_right _ _ (Nat.two_pow_pos _), Nat.div_eq_of_lt hn, Nat.zero_add]

/-! ### The fields of a word -/

/-- A field of an operation's word is that field of its operands (30_encoding.md R71). -/
theorem fieldBits_wordOf_toNat (o : Op) {n lo len : Nat} (hn : n < 2 ^ 36) (hlen : lo + len ≤ 36) :
    (fieldBits (wordOf o n) lo len).toNat = n / 2 ^ lo % 2 ^ len := by
  have hpow : 2 ^ 36 = 2 ^ (36 - (lo + len)) * 2 ^ len * 2 ^ lo := by
    rw [← Nat.pow_add, ← Nat.pow_add]; congr 1; omega
  rw [fieldBits_toNat, wordOf_toNat o hn, hpow, ← Nat.mul_assoc, ← Nat.mul_assoc, Nat.add_comm,
    Nat.add_mul_div_right _ _ (Nat.two_pow_pos _), Nat.add_mul_mod_self_right]

theorem fieldBits_wordOf_eq (o : Op) {n lo len : Nat} {v : BitVec len} (hn : n < 2 ^ 36) (hlen : lo + len ≤ 36)
    (hv : n / 2 ^ lo % 2 ^ len = v.toNat) : fieldBits (wordOf o n) lo len = v :=
  BitVec.eq_of_toNat_eq ((fieldBits_wordOf_toNat o hn hlen).trans hv)

/-- An operand field that is one number, at the lowest bits of its word. -/
theorem fieldBits_wordOf_single (o : Op) {len : Nat} (hlen : len ≤ 36) (v : BitVec len) :
    fieldBits (wordOf o v.toNat) 0 len = v :=
  fieldBits_wordOf_eq o (v.isLt.trans_le (Nat.pow_le_pow_right (by decide) hlen)) (by omega)
    (by rw [Nat.pow_zero, Nat.div_one, Nat.mod_eq_of_lt v.isLt])

/-- The fields of a word of format HMS. -/
theorem fieldBits_wordOf_hms (o : Op) (hour : BitVec 5) (min sec : BitVec 6) :
    fieldBits (wordOf o (hmsField hour min sec)) 12 5 = hour ∧ fieldBits (wordOf o (hmsField hour min sec)) 6 6 = min ∧
      fieldBits (wordOf o (hmsField hour min sec)) 0 6 = sec := by
  have := hour.isLt; have := min.isLt; have := sec.isLt
  have hfield : hmsField hour min sec = hour.toNat * 4096 + min.toNat * 64 + sec.toNat := by
    simp only [hmsField, Nat.shiftLeft_eq]
  refine ⟨fieldBits_wordOf_eq o ?_ (by decide) ?_, fieldBits_wordOf_eq o ?_ (by decide) ?_,
    fieldBits_wordOf_eq o ?_ (by decide) ?_⟩ <;> omega

/-- The number of open bits of an operation holds its operand field. -/
theorem operandField_lt (i : Instr) : operandField i < 2 ^ openBits i.op.format := by
  have hms (hour : BitVec 5) (min sec : BitVec 6) : hmsField hour min sec < 2 ^ 17 := by
    have := hour.isLt; have := min.isLt; have := sec.isLt
    simp only [hmsField, Nat.shiftLeft_eq]; omega
  cases i with
  | tobcd v | parity v => exact v.isLt
  | symfor sec min hour doy year2 wday =>
    have := sec.isLt; have := min.isLt; have := hour.isLt; have := doy.isLt; have := year2.isLt; have := wday.isLt
    simp only [operandField, Instr.op, Op.format, openBits, Nat.shiftLeft_eq]; omega
  | symwr sym => exact sym.isLt
  | modstart | modstop | tick => exact Nat.one_pos
  | classify hour min sec | sechour hour min sec | secdaily hour min sec | sched hour min sec => exact hms hour min sec
  | sleepcp secs | sleepdeep secs => exact secs.isLt

theorem operandField_lt_two_pow_36 (i : Instr) : operandField i < 2 ^ 36 :=
  (operandField_lt i).trans_le (two_pow_openBits_le _)

/-- The word of an operation as a number (30_encoding.md R70). -/
theorem encode_toNat (i : Instr) : (encode i).toNat = i.op.code.toNat * 2 ^ 36 + operandField i :=
  wordOf_toNat i.op (operandField_lt_two_pow_36 i)

/-- Taking the fields of an operation's word gives the operation back. -/
theorem assemble_encode (i : Instr) : i.op.assemble (encode i) = i := by
  cases i with
  | tobcd v => exact congrArg Instr.tobcd (fieldBits_wordOf_single .tobcd (by decide) v)
  | parity v => exact congrArg Instr.parity (fieldBits_wordOf_single .parity (by decide) v)
  | symfor sec min hour doy year2 wday =>
    have hlt := operandField_lt_two_pow_36 (.symfor sec min hour doy year2 wday)
    have := sec.isLt; have := min.isLt; have := hour.isLt; have := doy.isLt; have := year2.isLt; have := wday.isLt
    simp only [Instr.op, Op.assemble, encode, Instr.symfor.injEq]
    refine ⟨fieldBits_wordOf_eq _ hlt (by decide) ?_, fieldBits_wordOf_eq _ hlt (by decide) ?_,
      fieldBits_wordOf_eq _ hlt (by decide) ?_, fieldBits_wordOf_eq _ hlt (by decide) ?_,
      fieldBits_wordOf_eq _ hlt (by decide) ?_, fieldBits_wordOf_eq _ hlt (by decide) ?_⟩ <;>
    simp only [operandField, Nat.shiftLeft_eq] <;> omega
  | symwr sym => exact congrArg Instr.symwr (fieldBits_wordOf_single .symwr (by decide) sym)
  | modstart | modstop | tick => rfl
  | classify hour min sec | sechour hour min sec | secdaily hour min sec | sched hour min sec =>
    simp only [Instr.op, Op.assemble, encode, operandField, fieldBits_wordOf_hms]
  | sleepcp secs => exact congrArg Instr.sleepcp (fieldBits_wordOf_single .sleepcp (by decide) secs)
  | sleepdeep secs => exact congrArg Instr.sleepdeep (fieldBits_wordOf_single .sleepdeep (by decide) secs)

/-- The fields taken from an operation's word, put back at their places, are its operands. -/
theorem operandField_assemble (o : Op) {n : Nat} (hn : n < 2 ^ openBits o.format) :
    operandField (o.assemble (wordOf o n)) = n := by
  have hlt : n < 2 ^ 36 := hn.trans_le (two_pow_openBits_le _)
  have hfield {lo len : Nat} (hlen : lo + len ≤ 36) := fieldBits_wordOf_toNat o hlt hlen
  cases o with
  | tobcd | parity | symwr | sleepcp | sleepdeep =>
    refine (hfield (by decide)).trans ?_
    rw [Nat.pow_zero, Nat.div_one]; exact Nat.mod_eq_of_lt hn
  | modstart | modstop | tick => exact (Nat.lt_one_iff.1 hn).symm
  | symfor =>
    simp (disch := decide) only [Op.assemble, operandField, hfield, Nat.shiftLeft_eq]; omega
  | classify | sechour | secdaily | sched =>
    replace hn : n < 2 ^ 17 := hn
    simp (disch := decide) only [Op.assemble, operandField, hmsField, hfield, Nat.shiftLeft_eq]; omega

/-! ### Decoding -/

/-- A word whose fixed bits are an operation's has its code (30_encoding.md R73, R75). -/
theorem ofCode_of_match {w : Word} {o : Op} (h : w &&& o.format.mask = o.matchWord) :
    Op.ofCode (fieldBits w 36 4) = some o := by
  obtain ⟨n, hn, rfl⟩ := and_mask_eq_matchWord_iff_wordOf.1 h
  have hlt : n < 2 ^ 36 := hn.trans_le (two_pow_openBits_le _)
  have hcode : fieldBits (wordOf o n) 36 4 = o.code := by
    apply BitVec.eq_of_toNat_eq
    rw [opField_toNat, wordOf_toNat o hlt]; omega
  rw [hcode, Op.ofCode_code]

/-- When the decoder accepts a word: its fixed bits are the operation's and its fields are the operands. -/
theorem decode_eq_ok_iff {w : Word} {i : Instr} :
    decode w = .ok i ↔ w &&& i.op.format.mask = i.op.matchWord ∧ i = i.op.assemble w := by
  constructor
  · intro h
    obtain ⟨o, -, hm, rfl⟩ := decode_ok h
    rw [Op.assemble_op]
    exact ⟨hm, rfl⟩
  · rintro ⟨hm, hi⟩
    rw [decode_of_match (ofCode_of_match hm) hm, ← hi]

/-- Settles O1: the fixed bits of an operation's word are the operation's, and its fields are the operands. -/
theorem decodeOfEncode : Obligations.DecodeOfEncode := fun i =>
  decode_eq_ok_iff.2 ⟨and_mask_eq_matchWord_iff_wordOf.2 ⟨_, operandField_lt i, rfl⟩, (assemble_encode i).symm⟩

/-- Settles O2: the fixed bits leave open the operand field only, which the operation's fields make up. -/
theorem encodeOfDecode : Obligations.EncodeOfDecode := by
  intro w i h
  obtain ⟨o, -, hm, rfl⟩ := decode_ok h
  obtain ⟨n, hn, rfl⟩ := and_mask_eq_matchWord_iff_wordOf.1 hm
  rw [encode, Op.assemble_op, operandField_assemble o hn]

/-- Settles O4: a word with the operation's fixed bits decodes to the operation of its fields. -/
theorem wordSelectsOperationByMask : Obligations.WordSelectsOperationByMask := by
  intro w o
  constructor
  · exact fun hm => ⟨o.assemble w, decode_of_match (ofCode_of_match hm) hm, o.assemble_op w⟩
  · rintro ⟨i, hd, rfl⟩
    exact (decode_eq_ok_iff.1 hd).1

/-- The word of an operation as a number, its code's place and its operands given. -/
theorem encode_toNat_of {i : Instr} {o : Op} {base n : Nat} (ho : i.op = o) (hbase : o.code.toNat * 2 ^ 36 = base)
    (hn : operandField i = n) : (encode i).toNat = base + n := by
  rw [encode_toNat, ho, hbase, hn]

/-- Settles O3: the code in steps of `2^36`, and each field in steps of its lowest bit. -/
theorem fieldPositions : Obligations.FieldPositions := by
  refine ⟨fun v => ⟨encode_toNat_of (o := .tobcd) rfl (by decide) rfl,
      encode_toNat_of (o := .parity) rfl (by decide) rfl⟩,
    fun sec min hour doy year2 wday => ?_, fun sym => encode_toNat_of (o := .symwr) rfl (by decide) rfl, by decide,
    fun hour min sec => ⟨Machine.encode_hms_toNat (o := .classify) rfl (by decide) rfl,
      Machine.encode_hms_toNat (o := .sechour) rfl (by decide) rfl,
      Machine.encode_hms_toNat (o := .secdaily) rfl (by decide) rfl,
      Machine.encode_hms_toNat (o := .sched) rfl (by decide) rfl⟩,
    fun secs => ⟨encode_toNat_of (o := .sleepcp) rfl (by decide) rfl,
      encode_toNat_of (o := .sleepdeep) rfl (by decide) rfl⟩⟩
  rw [encode_toNat_of (o := .symfor) (base := 0x3000000000) rfl (by decide) rfl]
  simp only [operandField, Nat.shiftLeft_eq, Nat.add_assoc]

theorem decode_of_eq_encode {w : Word} {i : Instr} (h : w = encode i) : decode w = .ok i := h ▸ decodeOfEncode i

/-- Settles O5: each word is the one of its operation. -/
theorem wordsDecodeAsSpecified : Obligations.WordsDecodeAsSpecified :=
  ⟨decode_of_eq_encode (by decide), decode_of_eq_encode (by decide), decode_of_eq_encode (by decide),
    decode_of_eq_encode (by decide), decode_of_eq_encode (by decide), decode_of_eq_encode (by decide)⟩

end Sys2Proof

/-! PROOFS. The invariant of the core holds after a reset (O49), every step keeps it (O50), so it holds in every reachable
state (O51). One lemma per update of the state says when it keeps the invariant; an operation is a chain of updates. -/

namespace Sys2Proof.Machine

section
variable {s t : State}

/-! ### The updates keep the invariant -/

theorem State.Inv.withResult (h : s.Inv) (r : Option Result) : (s.withResult r).Inv := { h with }

theorem State.Inv.writeSym (h : s.Inv) (x : Symbol) : (s.writeSym x).Inv := { h with }

theorem State.Inv.sample (h : s.Inv) (inp : Input) (rest : List Input) : (s.sample inp rest).Inv := { h with }

/-- The stored counter is one more than a subslot. -/
theorem tickWith_sub_le (s : State) (x : Symbol) : (s.tickWith x).sub.toNat ≤ 10 := by
  have := effectiveSub_toNat_lt s.sub
  simp only [State.tickWith, State.setSub_sub, BitVec.toNat_add, BitVec.toNat_ofNat]; omega

/-- A tick writes both outputs; it runs on a running modulator only. -/
theorem State.Inv.tickWith (h : s.Inv) (hr : s.run = true) (x : Symbol) : (s.tickWith x).Inv :=
  { h with
    ledMirrors := rfl
    stoppedIsOff := fun hf => absurd (hr.symm.trans hf) (by decide)
    subBound := tickWith_sub_le s x }

/-- A reset of any state meets the invariant (10_state.md R39). -/
theorem resetBy_inv (s : State) (c : ResetCause) : (s.resetBy c).Inv where
  ledMirrors := rfl
  stoppedIsOff _ := rfl
  subBound := Nat.zero_le 10
  asleepIsStopped _ := rfl
  timerArmed := by simp
  timerRange _ hn := nomatch hn
  wakeLatched := rfl

/-- An awake device may start the modulator. -/
theorem State.Inv.startModulator (h : s.Inv) (hp : s.pwr = .awake) : s.startModulator.Inv := by
  rcases startModulator_cases s with ⟨-, ht⟩ | ⟨hr, -, ht⟩ | ⟨-, -, ht⟩
  · rwa [ht]
  · rw [ht]
    exact { h with
      stoppedIsOff := fun _ => h.stoppedIsOff hr
      subBound := Nat.zero_le 10
      asleepIsStopped := fun ha => absurd hp ha }
  · rw [ht]; exact resetBy_inv _ _

theorem State.Inv.stopModulator (h : s.Inv) : s.stopModulator.Inv := by
  cases hr : s.run with
  | false => rwa [stopModulator_stopped hr]
  | true =>
    rw [stopModulator_running hr]
    exact { h with ledMirrors := rfl, stoppedIsOff := fun _ => rfl, asleepIsStopped := fun _ => rfl }

/-- A halt arms the timer within its range (60_exceptions.md R266) on a stopped modulator. -/
theorem State.Inv.enterSleep (h : s.Inv) (hr : s.run = false) {p : Power} (hp : p ≠ .awake) {n : BitVec 17}
    (hn : 1 ≤ n.toNat ∧ n.toNat ≤ 86400) : (s.enterSleep p n).Inv :=
  { h with
    asleepIsStopped := fun _ => hr
    timerArmed := iff_of_true rfl hp
    timerRange := fun _ hm => Option.some.inj hm ▸ hn }

theorem State.Inv.sleepCp (h : s.Inv) (hr : s.run = false) {n : BitVec 17} (hn : n.toNat ≤ 86400) :
    (s.sleepCp n).Inv := by
  unfold State.sleepCp
  split
  · exact h
  · exact h.enterSleep hr (by decide) ⟨Nat.not_lt.1 ‹_›, hn⟩

theorem State.Inv.leaveSleepCp (h : s.Inv) : s.leaveSleepCp.Inv :=
  { h with
    asleepIsStopped := fun ha => absurd rfl ha
    timerArmed := by simp
    timerRange := nofun }

/-! ### Operations, events and steps keep it -/

/-- SCHED starts the modulator or stops it and then sleeps for a legal duration (43_deadline_scheduler.md R200). -/
theorem State.Inv.schedAct (h : s.Inv) (hp : s.pwr = .awake) {hh m sec : Nat} (hhour : hh < 24) (hm : m < 60)
    (hsec : sec < 60) (w : Window) : (s.schedAct w hh m sec).Inv := by
  have transmit : (s.schedTransmit w).Inv := by
    obtain ⟨r, hr⟩ := schedTransmit_eq_startModulator s w
    rw [hr]; exact (h.startModulator hp).withResult r
  have sleep : (s.schedSleepCp w (BitVec.ofNat 17 (secondsToHour m sec))).Inv := by
    have hle : (BitVec.ofNat 17 (secondsToHour m sec)).toNat ≤ 86400 := by
      rw [secondsToHour_toNat hm hsec]; exact (secondsToHour_range hm hsec).2.trans (by decide)
    exact (h.stopModulator.sleepCp (stopModulator_run s) hle).withResult _
  have suspend : (s.schedSleepDeep w (BitVec.ofNat 17 (secondsToDaily s.cfg hh m sec))).Inv := by
    have hrange := secondsToDaily_range s.cfg hhour hm hsec
    rw [← secondsToDaily_toNat s.cfg hhour hm hsec] at hrange
    exact (h.stopModulator.enterSleep (stopModulator_run s) (by decide) hrange).withResult _
  cases w with
  | bootTest => exact transmit
  | nightTransmit => exact transmit
  | preMidnightHold => exact sleep
  | nightIdle => exact sleep
  | daytimeSuspend => exact suspend

theorem State.Inv.exec {i : Instr} (h : s.Inv) (he : exec i s = .next t) : t.Inv := by
  rcases exec_next_cases he with ⟨-, -, rfl⟩ | ⟨-, -, r, rfl⟩ | ⟨x, -, -, rfl⟩ | ⟨-, hp, rfl⟩ | ⟨-, -, rfl⟩ |
    ⟨-, hen, x, -, rfl⟩ | ⟨hour, min, sec, -, hp, -, ⟨hh, hm, hsec⟩, rfl⟩ | ⟨n, -, -, hr, hn, rfl⟩ |
    ⟨n, -, -, hr, hn, rfl⟩
  · exact h
  · exact h.withResult _
  · exact (h.writeSym x).withResult _
  · exact (h.startModulator hp).withResult _
  · exact h.stopModulator.withResult _
  · exact (h.tickWith ((tickEnabled_iff s).1 hen).1 x).withResult _
  · exact h.schedAct hp hh hm hsec _
  · exact (h.sleepCp hr hn).withResult _
  · exact (h.enterSleep hr (by decide) hn).withResult _

theorem State.Inv.wakeBy (h : s.Inv) (src : WakeSource) : (s.wakeBy src).Inv := by
  unfold State.wakeBy
  split
  · exact h
  · exact h.leaveSleepCp
  · exact resetBy_inv _ _
  · exact h

theorem State.Inv.step (h : s.Inv) (hs : step s = .next t) : t.Inv := by
  rcases step_next_cases hs with ⟨-, rfl⟩ | ⟨inp, rest, -, hevent⟩
  · exact h
  · rcases hevent with ⟨w, i, -, -, -, he⟩ | ⟨-, he⟩ | ⟨src, -, rfl⟩ | ⟨c, -, rfl⟩
    · exact (h.sample inp rest).exec he
    · exact (h.sample inp rest).exec he
    · exact (h.sample inp rest).wakeBy src
    · exact resetBy_inv _ c

/-! ### Runs -/

/-- A run of `k + 1` steps that ends in a state is a step and a run of `k`. -/
theorem run_succ_next {k : Nat} (h : core.run (k + 1) s = .next t) : ∃ u, step s = .next u ∧ core.run k u = .next t := by
  simp only [Host.Core.run] at h
  split at h
  · exact ⟨_, ‹_›, h⟩
  · cases h
  · cases h

/-- What every step keeps, every run keeps. -/
theorem run_keeps {P : State → Prop} (hstep : ∀ s t, P s → step s = .next t → P t) {k : Nat} (hs : P s)
    (h : core.run k s = .next t) : P t := by
  induction k generalizing s with
  | zero => cases h; exact hs
  | succ k ih =>
    obtain ⟨u, hu, hrun⟩ := run_succ_next h
    exact ih (hstep s u hs hu) hrun

end

/-- Settles O50: a step is a chain of updates each of which keeps the invariant. -/
theorem stepKeepsInvariant : Obligations.StepKeepsInvariant := fun _ _ hi h => hi.step h

/-- Settles O49: the state after power-on is what a reset of any state leaves. -/
theorem resetMeetsInvariant : Obligations.ResetMeetsInvariant := resetBy_inv State.reset .powerOn

/-- Settles O51: the invariant holds after a reset, whatever the configuration and the environment, and every step keeps it. -/
theorem reachableStatesMeetR40 : Obligations.ReachableStatesMeetR40 := by
  intro c sched cycle k s h
  have hstart : ({ State.reset with cfg := c, schedule := sched, cycle := cycle } : State).Inv :=
    { resetMeetsInvariant with }
  have hi : s.Inv := run_keeps (fun _ _ => State.Inv.step) hstart h
  have hsym : s.sym = none ∨ s.sym = some .zero ∨ s.sym = some .one ∨ s.sym = some .marker := by
    rcases s.sym with _ | _ | _ | _ <;> simp
  exact ⟨hi.ledMirrors, hi.stoppedIsOff, hi.subBound, hi.asleepIsStopped, hsym⟩

end Sys2Proof.Machine

/-! PROOFS. When an operation faults and with what (O8 to O12, O15), and what becomes of every word (O7). Every operation but
TICK is a `controlOp`, so its faults come from the range check; `exec_legal_cases` says what is left when that passes. -/

namespace Sys2Proof.Machine

section
variable {i : Instr} {s : State}

/-! ### The checks before an operation -/

/-- Every operation of the control loop stands behind the check of its enabling and its fields (30_encoding.md R74, R78). -/
theorem exec_eq_controlOp (hi : i ≠ .tick) (s : State) : ∃ body, exec i s = controlOp i s body := by
  cases i with
  | tick => exact absurd rfl hi
  | _ => exact ⟨_, rfl⟩

theorem exec_asleep (hi : i ≠ .tick) (hp : s.pwr ≠ .awake) : exec i s = .refused .notAwake := by
  obtain ⟨body, h⟩ := exec_eq_controlOp hi s
  rw [h, controlOp_asleep hp]

/-- A tick is not enabled while the device sleeps or the modulator is stopped (42_carrier_modulator.md R157). -/
theorem exec_tick_disabled (h : ¬(s.run = true ∧ s.pwr = .awake)) : exec .tick s = .next s :=
  execTick_disabled (Bool.eq_false_iff.2 fun he => h ((tickEnabled_iff s).1 he))

/-- The first field outside its range is reported (60_exceptions.md R255). -/
theorem exec_firstIllegal {o : Operand} (hp : s.pwr = .awake) (ho : firstIllegal i = some o) :
    exec i s = .fault (.operandRange o.field o.value) := by
  have hi : i ≠ .tick := by rintro rfl; cases ho
  obtain ⟨body, h⟩ := exec_eq_controlOp hi s
  rw [h, controlOp_illegal hp ho]

theorem exec_illegal (hp : s.pwr = .awake) (hwf : i.wf = false) : ∃ f v, exec i s = .fault (.operandRange f v) := by
  have hsome : firstIllegal i ≠ none := fun h => by simp [(firstIllegal_none_iff_wf i).1 h] at hwf
  obtain ⟨o, ho⟩ := Option.ne_none_iff_exists'.1 hsome
  exact ⟨o.field, o.value, exec_firstIllegal hp ho⟩

/-! ### What is left for a legal operation -/

/-- The operations with wall-clock operands (60_exceptions.md R242). -/
def timedOps : List Op := [.symfor, .classify, .sechour, .secdaily, .sched]

/-- The sleep requests (44_sleep_interface.md R229). -/
def sleepOps : List Op := [.sleepcp, .sleepdeep]

/-- What becomes of an operation of legal fields on an awake device. -/
inductive LegalOutcome (i : Instr) (s : State) : Prop
  /-- It completes. -/
  | completes {t : State} (h : exec i s = .next t) (htime : i.op ∈ timedOps → s.ports.timeTrusted = true)
      (hsym : i = .tick → s.run = true → s.sym ≠ none)
  /-- The time is not trusted (60_exceptions.md R242). -/
  | untrusted (h : exec i s = .fault (.timeUntrusted i.op)) (hop : i.op ∈ timedOps) (ht : s.ports.timeTrusted = false)
  /-- The modulator runs (44_sleep_interface.md R229). -/
  | running (h : exec i s = .fault .sleepWhileRunning) (hop : i.op ∈ sleepOps)
  /-- The symbol cell is unwritten (60_exceptions.md R246). -/
  | unwritten (h : exec i s = .fault .symUnwritten) (hi : i = .tick) (hr : s.run = true) (hx : s.sym = none)

/-- A legal operation that asks for nothing else completes. -/
theorem legalOutcome_of_controlOp {t : State} (hp : s.pwr = .awake) (hi : firstIllegal i = none)
    (he : exec i s = controlOp i s (.next t)) (hop : i.op ∉ Op.tick :: timedOps) : LegalOutcome i s :=
  .completes (he.trans (controlOp_legal hp hi)) (fun h => absurd (List.mem_cons_of_mem _ h) hop)
    (by rintro rfl; exact absurd List.mem_cons_self hop)

theorem legalOutcome_of_timedOp {t : State} (hp : s.pwr = .awake) (hi : firstIllegal i = none)
    (he : exec i s = timedOp i s (.next t)) (hop : i.op ∈ timedOps) : LegalOutcome i s := by
  cases ht : s.ports.timeTrusted with
  | true => exact .completes (he.trans (timedOp_legal hp hi ht)) (fun _ => ht) (by rintro rfl; exact absurd hop (by decide))
  | false => exact .untrusted (he.trans (timedOp_untrusted hp hi ht)) hop ht

theorem legalOutcome_of_sleepOp {t : State} (hp : s.pwr = .awake) (hi : firstIllegal i = none)
    (he : exec i s = sleepOp i s (.next t)) (hop : i.op ∈ sleepOps) : LegalOutcome i s := by
  cases hr : s.run with
  | true => exact .running (he.trans (sleepOp_running hp hi hr)) hop
  | false =>
    have hdisj : ∀ o ∈ sleepOps, o ∉ Op.tick :: timedOps := by decide
    exact legalOutcome_of_controlOp (t := t) hp hi (he.trans (by simp [sleepOp, hr])) (hdisj _ hop)

theorem legalOutcome_tick (hp : s.pwr = .awake) : LegalOutcome .tick s := by
  have hop : Instr.tick.op ∉ timedOps := by decide
  cases hr : s.run with
  | false => exact .completes (exec_tick_disabled (by simp [hr])) (absurd · hop) fun _ h => by simp [hr] at h
  | true =>
    cases hx : s.sym with
    | none => exact .unwritten (execTick_unwritten ((tickEnabled_iff s).2 ⟨hr, hp⟩) hx) rfl hr hx
    | some x => exact .completes (exec_tick_written hr hp hx) (absurd · hop) fun _ _ => by simp [hx]

/-- A legal field of SYMWR is the code of a symbol (30_encoding.md R80). -/
theorem exists_symbol_of_wf {c : BitVec 2} (h : (Instr.symwr c).wf = true) : ∃ x : Symbol, c = x.code := by
  have hcode : ∀ c : BitVec 2, c.toNat < 3 → (Symbol.ofCode c).isSome := by decide
  obtain ⟨x, hx⟩ := Option.isSome_iff_exists.1 (hcode c (by simpa [Instr.wf] using h))
  exact ⟨x, (code_of_ofCode hx).symm⟩

/-- What an operation of legal fields does on an awake device, said once. -/
theorem exec_legal (hp : s.pwr = .awake) (hwf : i.wf = true) : LegalOutcome i s := by
  have hi := (firstIllegal_none_iff_wf i).2 hwf
  cases i with
  | tobcd | parity | modstart | modstop =>
    exact legalOutcome_of_controlOp hp hi rfl (by simp [Instr.op, timedOps])
  | symwr c =>
    obtain ⟨x, rfl⟩ := exists_symbol_of_wf hwf
    exact .completes (exec_symwr_code hp x) (fun h => absurd h (by simp [Instr.op, timedOps])) nofun
  | symfor | classify | sechour | secdaily | sched =>
    exact legalOutcome_of_timedOp hp hi rfl (by simp [Instr.op, timedOps])
  | sleepcp | sleepdeep => exact legalOutcome_of_sleepOp hp hi rfl (by simp [Instr.op, sleepOps])
  | tick => exact legalOutcome_tick hp

/-- A timed operation faults where the time is not trusted, for none of the other outcomes can be its own. -/
theorem exec_untrusted (hp : s.pwr = .awake) (hwf : i.wf = true) (hop : i.op ∈ timedOps)
    (ht : s.ports.timeTrusted = false) : exec i s = .fault (.timeUntrusted i.op) := by
  cases exec_legal hp hwf with
  | untrusted he => exact he
  | completes _ htime => exact absurd (htime hop) (by simp [ht])
  | running _ hsleep =>
    have hdisj : ∀ o ∈ sleepOps, o ∉ timedOps := by decide
    exact absurd hop (hdisj _ hsleep)
  | unwritten _ hi => subst hi; exact absurd hop (by decide)

end

/-! ### Each fault, exactly when it arises -/

/-- Settles O8: an illegal field is reported first, and a legal operation never reports one. -/
theorem operandRangeExactly : Obligations.OperandRangeExactly := by
  intro i s hp
  refine ⟨fun ⟨f, v, h⟩ => Bool.eq_false_iff.2 fun hwf => ?_, exec_illegal hp⟩
  cases exec_legal hp hwf with
  | completes he | untrusted he | running he | unwritten he => cases he.symm.trans h

/-- Settles O10: of the outcomes of a legal operation one is the distrust of the time. -/
theorem untrustedTimeExactly : Obligations.UntrustedTimeExactly := by
  intro i s hp hwf
  constructor
  · rintro ⟨o, h⟩
    cases exec_legal hp hwf with
    | untrusted _ hop ht => exact ⟨hop, ht⟩
    | completes he | running he | unwritten he => cases he.symm.trans h
  · rintro ⟨hop, ht⟩
    exact ⟨_, exec_untrusted hp hwf hop ht⟩

/-- Settles O11: asleep no operation faults, and awake only a legal one that is a tick meets the cell unwritten. -/
theorem unwrittenSymbolExactly : Obligations.UnwrittenSymbolExactly := by
  intro i s
  constructor
  · intro h
    by_cases hp : s.pwr = .awake
    · cases hwf : i.wf with
      | false =>
        obtain ⟨f, v, he⟩ := exec_illegal hp hwf
        cases he.symm.trans h
      | true =>
        cases exec_legal hp hwf with
        | unwritten _ hi hr hx => exact ⟨hi, hr, hp, hx⟩
        | completes he | untrusted he | running he => cases he.symm.trans h
    · by_cases hi : i = .tick
      · subst hi; cases (exec_tick_disabled fun he => hp he.2).symm.trans h
      · cases (exec_asleep hi hp).symm.trans h
  · rintro ⟨rfl, hr, hp, hx⟩
    exact execTick_unwritten ((tickEnabled_iff s).2 ⟨hr, hp⟩) hx

/-- Settles O12: the enabling is the first check, of a word as well. -/
theorem nothingRunsAsleep : Obligations.NothingRunsAsleep := by
  refine ⟨fun i s hp hi => exec_asleep hi hp, fun s hp => exec_tick_disabled fun he => hp he.2,
    fun s n p w rest hn hp => ?_⟩
  rw [step_of_nextInput hn]
  exact if_neg hp

/-! ### The order of the fields -/

section
variable {i : Instr} {s : State} {f : Field} {v lo hi : Nat} {pre post : List Operand}

/-- An operation whose fields are in range up to one that is not reports that one (60_exceptions.md R255). -/
theorem exec_reports (hp : s.pwr = .awake) (hops : operandsOf i = pre ++ ⟨f, v, lo, hi⟩ :: post)
    (hpre : ∀ a ∈ pre, a.lo ≤ a.value ∧ a.value ≤ a.hi) (hv : v < lo ∨ hi < v) :
    exec i s = .fault (.operandRange f v) := by
  have hillegal : (!operandLegal ⟨f, v, lo, hi⟩) = true := by
    simp only [operandLegal, Bool.not_eq_true', Bool.and_eq_false_iff, decide_eq_false_iff_not]; omega
  have hlegal : ∀ a ∈ pre, (!(!operandLegal a)) = true := fun a ha => by
    simpa only [Bool.not_not] using (operandLegal_iff a).2 (hpre a ha)
  exact exec_firstIllegal hp (List.find?_eq_some_iff_append.2 ⟨hillegal, pre, post, hops, hlegal⟩)

end

/-- Settles O15: 999 is the last legal value. -/
theorem tobcdOutOfContract : Obligations.TobcdOutOfContract := fun _ _ hp hv =>
  exec_reports (pre := []) hp rfl nofun (.inr hv)

section
variable {i : Instr} {s : State} {hour : BitVec 5} {min sec : BitVec 6} {doy : BitVec 9} {year2 : BitVec 7} {wday : BitVec 3}

/-- The four operations of format HMS have its fields and take the time (30_encoding.md R71, R75). -/
theorem operandsOf_hms
    (hi : i ∈ [Instr.classify hour min sec, .sechour hour min sec, .secdaily hour min sec, .sched hour min sec]) :
    operandsOf i = hmsOperands hour min sec ∧ i.op ∈ timedOps := by
  simp only [List.mem_cons, List.not_mem_nil, or_false] at hi
  rcases hi with rfl | rfl | rfl | rfl <;> exact ⟨rfl, by simp [Instr.op, timedOps]⟩

theorem symfor_wf (hsec : sec.toNat < 60) (hd : LegalDate min hour doy year2 wday) :
    (Instr.symfor sec min hour doy year2 wday).wf = true := by
  obtain ⟨hmin, hhour, ⟨hdoy, hdoy'⟩, hyear, hwday⟩ := hd
  simp [Instr.wf, timeOfDayWf, *]

theorem wf_of_legalTime (hops : operandsOf i = hmsOperands hour min sec) (hl : LegalTime hour min sec) :
    i.wf = true := by
  rw [← firstIllegal_none_iff_wf, firstIllegal, hops]
  exact (firstIllegal_hms hour min sec).2 hl

end

/-- Settles O9, format by format: the fields from the high bits to the low, and then what a legal operation asks for. -/
theorem faultPriority : Obligations.FaultPriority := by
  refine ⟨fun s hour min sec i hp hi => ?_, fun s sec min hour doy year2 wday hp => ?_, fun s secs hp => ?_⟩
  · obtain ⟨hops, hop⟩ := operandsOf_hms hi
    refine ⟨fun hh => exec_reports (pre := []) hp hops nofun (.inr hh),
      fun hh hm => exec_reports (pre := [⟨.hour, _, _, _⟩]) hp hops ?_ (.inr hm),
      fun hh hm hs => exec_reports (pre := [⟨.hour, _, _, _⟩, ⟨.min, _, _, _⟩]) hp hops ?_ (.inr hs),
      fun hl ht => exec_untrusted hp (wf_of_legalTime hops hl) hop ht⟩
    all_goals simp only [List.forall_mem_cons, List.not_mem_nil, false_imp_iff, implies_true, and_true]; omega
  · refine ⟨fun hs => exec_reports (pre := []) hp rfl nofun (.inr hs),
      fun hs hm => exec_reports (pre := [⟨.sec, _, _, _⟩]) hp rfl ?_ (.inr hm),
      fun hs hm hh => exec_reports (pre := [⟨.sec, _, _, _⟩, ⟨.min, _, _, _⟩]) hp rfl ?_ (.inr hh),
      fun hs hm hh hd => exec_reports (pre := [⟨.sec, _, _, _⟩, ⟨.min, _, _, _⟩, ⟨.hour, _, _, _⟩]) hp rfl ?_
        (hd.imp_left Nat.lt_one_iff.2),
      fun hs hm hh hd hd' hy => exec_reports
        (pre := [⟨.sec, _, _, _⟩, ⟨.min, _, _, _⟩, ⟨.hour, _, _, _⟩, ⟨.doy, _, _, _⟩]) hp rfl ?_ (.inr hy),
      fun hs hm hh hd hd' hy hw => exec_reports
        (pre := [⟨.sec, _, _, _⟩, ⟨.min, _, _, _⟩, ⟨.hour, _, _, _⟩, ⟨.doy, _, _, _⟩, ⟨.year2, _, _, _⟩]) hp rfl ?_
        (.inr hw),
      fun hs hd ht => exec_untrusted hp (symfor_wf hs hd) (by simp [Instr.op, timedOps]) ht⟩
    all_goals simp only [List.forall_mem_cons, List.not_mem_nil, false_imp_iff, implies_true, and_true]; omega
  · exact ⟨fun hn => exec_reports (pre := []) hp rfl nofun (.inr hn),
      fun hn => exec_reports (pre := []) hp rfl nofun (hn.imp_left Nat.lt_one_iff.2),
      fun hn hr => sleepOp_running hp ((firstIllegal_none_iff_wf (.sleepcp secs)).2 (by simpa [Instr.wf] using hn)) hr,
      fun hn hn' hr => sleepOp_running hp
        ((firstIllegal_none_iff_wf (.sleepdeep secs)).2 (by simpa [Instr.wf] using ⟨hn, hn'⟩)) hr⟩

/-! ### The outcome of a word -/

section
variable {w : Word} {s : State}

/-- A word that decodes to no operation of the control loop faults (30_encoding.md R73, R76, R77). -/
theorem issue_reserved (hp : s.pwr = .awake) (h : ∀ i, decode w = .ok i → i = .tick) :
    issue w s = .fault (.reservedEncoding w) := by
  unfold issue
  rw [if_pos hp]
  split
  · rfl
  · rw [if_pos (h _ ‹_›)]

/-- The code of a word that decodes is that of an operation. -/
theorem code_of_decode {i : Instr} (h : decode w = .ok i) : w.toNat / 2 ^ 36 = i.op.code.toNat := by
  obtain ⟨o, ho, -, rfl⟩ := decode_ok h
  rw [← opField_toNat, Op.assemble_op, Op.code_of_ofCode ho]

/-- A word with a reserved code decodes to nothing (30_encoding.md R76). -/
theorem decode_ne_ok_of_reservedCode (h : w.toNat / 2 ^ 36 = 0x0 ∨ w.toNat / 2 ^ 36 = 0xE ∨ w.toNat / 2 ^ 36 = 0xF)
    (i : Instr) : decode w ≠ .ok i := by
  have hcode : ∀ o : Op, o.code.toNat ≠ 0x0 ∧ o.code.toNat ≠ 0xE ∧ o.code.toNat ≠ 0xF := by
    intro o; cases o <;> decide
  intro hd
  obtain ⟨h0, hE, hF⟩ := hcode i.op
  rw [code_of_decode hd] at h
  rcases h with h | h | h
  · exact h0 h
  · exact hE h
  · exact hF h

/-- A word selects the operation it decodes to and no other. -/
theorem selects_iff {i : Instr} (hd : decode w = .ok i) (o : Op) :
    w &&& o.format.mask = o.matchWord ↔ o = i.op := by
  rw [wordSelectsOperationByMask w o, hd]
  exact ⟨fun ⟨_, hj, ho⟩ => by rw [Except.ok.inj hj, ho], fun ho => ⟨i, rfl, ho.symm⟩⟩

end

/-- Settles O7: a word decodes to an operation of the control loop, and then it runs, or it is reserved. -/
theorem everyWordHasOneOutcome : Obligations.EveryWordHasOneOutcome := by
  intro s n p w rest hn hp
  have hreserved (h : ∀ i, decode w = .ok i → i = .tick) : step s = .fault (.reservedEncoding w) :=
    (step_of_nextInput hn).trans (issue_reserved hp h)
  refine ⟨fun h => hreserved fun i hd => absurd hd (decode_ne_ok_of_reservedCode h i), ?_⟩
  by_cases hex : ∃ i, decode w = .ok i ∧ i ≠ .tick
  · obtain ⟨i, hd, hi⟩ := hex
    have hstep := step_of_command hn hp hd hi
    exact .inr ⟨i, hd, hi, selects_iff hd, fun hwf => hstep ▸ exec_illegal hp hwf, fun _ => hstep⟩
  · have htick : ∀ i, decode w = .ok i → i = .tick := fun i hd => by_contra fun hi => hex ⟨i, hd, hi⟩
    refine .inl ⟨?_, hreserved htick⟩
    by_cases hw : decode w = .ok .tick
    · exact .inr ((decode_eq_tick_iff.1 hw).trans (by decide))
    · refine .inl fun o hm => ?_
      obtain ⟨i, hd, -⟩ := (wordSelectsOperationByMask w o).1 hm
      exact hw (htick i hd ▸ hd)

end Sys2Proof.Machine

/-! PROOFS. TOBCD's result and laws (O13, O14) and the reading of a frame (O21). A group of seconds reads as its digit: the
weights double from bit to bit, and the digits of a field are the groups of four bits of its BCD. -/

namespace Sys2Proof.Machine

/-! ### TOBCD -/

section
variable {s : State} {v : BitVec 12}

theorem exec_tobcd (hp : s.pwr = .awake) (hv : v.toNat ≤ 999) :
    exec (.tobcd v) s = .next (s.withResult (some (.bcd (toBcd v.toNat)))) := by
  have hwf : (Instr.tobcd v).wf = true := by simp only [Instr.wf, decide_eq_true_eq]; omega
  exact controlOp_legal hp ((firstIllegal_none_iff_wf _).2 hwf)

/-- The three digits of a value and the number TOBCD makes of them (40_bcd_parity.md R100, R104). -/
theorem toBcd_eq_digits {n : Nat} (hn : n < 1000) : ∃ h t u, (h ≤ 9 ∧ t ≤ 9 ∧ u ≤ 9) ∧ n = 100 * h + 10 * t + u ∧
    (toBcd n).toNat = 256 * h + 16 * t + u :=
  ⟨n / 100, n / 10 % 10, n % 10, by omega, by omega, toBcd_toNat hn⟩

/-- The digits of a value are the groups of four bits of TOBCD's number (40_bcd_parity.md R100). -/
theorem toBcd_digits {n : Nat} (hn : n < 1000) :
    (toBcd n).toNat / 256 = n / 100 ∧ (toBcd n).toNat / 16 % 16 = n / 10 % 10 ∧ (toBcd n).toNat % 16 = n % 10 := by
  obtain ⟨h, t, u, hdigits, rfl, hb⟩ := toBcd_eq_digits hn
  have hh : (100 * h + 10 * t + u) / 100 = h := by omega
  have ht : (100 * h + 10 * t + u) / 10 % 10 = t := by omega
  have hu : (100 * h + 10 * t + u) % 10 = u := by omega
  rw [hb, hh, ht, hu]
  exact ⟨by omega, by omega, by omega⟩

/-- A zero bit, read off the number. -/
theorem getLsbD_eq_false_of_div_mod {b : BitVec 12} {i : Nat} (h : b.toNat / 2 ^ i % 2 = 0) : b.getLsbD i = false := by
  rw [← BitVec.testBit_toNat, Nat.testBit_eq_decide_div_mod_eq, h]; rfl

end

/-- Settles O13: the digits stand in steps of 16. -/
theorem tobcdResult : Obligations.TobcdResult := by
  intro s v hp hv
  have hbcd : toBcd v.toNat = BitVec.ofNat 12 (256 * (v.toNat / 100) + 16 * (v.toNat / 10 % 10) + v.toNat % 10) := by
    apply BitVec.eq_of_toNat_eq
    have hlt := (toBcd v.toNat).isLt
    rw [toBcd_toNat (by omega)] at hlt ⊢
    exact (Nat.mod_eq_of_lt hlt).symm
  rw [exec_tobcd hp hv, hbcd, State.withResult]

/-- Settles O14: the laws of the number `256*h + 16*t + u` of three digits. -/
theorem tobcdLaws : Obligations.TobcdLaws := by
  intro s v hp hv
  have digits {n : Nat} (hn : n ≤ 999) : 100 * ((toBcd n).toNat / 256) + 10 * ((toBcd n).toNat / 16 % 16) +
      (toBcd n).toNat % 16 = n := by
    obtain ⟨hh, ht, hu⟩ := toBcd_digits (Nat.lt_succ_of_le hn)
    rw [hh, ht, hu]; omega
  obtain ⟨h, t, u, hdigits, hn, hb⟩ := toBcd_eq_digits (Nat.lt_succ_of_le hv)
  refine ⟨_, exec_tobcd hp hv, digits hv, fun v' hv' h => ?_, ⟨by omega, by omega, by omega⟩, fun _ => by omega,
    fun _ => getLsbD_eq_false_of_div_mod (by omega),
    fun _ => ⟨getLsbD_eq_false_of_div_mod (by omega), getLsbD_eq_false_of_div_mod (by omega)⟩,
    fun _ => ⟨getLsbD_eq_false_of_div_mod (by omega), getLsbD_eq_false_of_div_mod (by omega)⟩⟩
  have hsame : toBcd v'.toNat = toBcd v.toNat := by
    have hstate := congrArg State.result (Host.Outcome.next.inj ((exec_tobcd hp hv').symm.trans h))
    simpa using hstate
  exact BitVec.eq_of_toNat_eq (by rw [← digits hv', hsame, digits hv])

/-! ### Reading a digit -/

/-- The seconds of a digit with their weights: a bit's weight is that of bit 0 times its power of 2. A row names a second and
its bit. -/
def digitWeights (unit : Nat) (rows : List (BitVec 6 × Nat)) : List (Nat × Nat) :=
  rows.map fun p => (p.1.toNat, unit * 2 ^ p.2)

theorem frameValue_append (frame : Nat → Symbol) (l l' : List (Nat × Nat)) :
    frameValue frame (l ++ l') = frameValue frame l + frameValue frame l' := by
  induction l with
  | nil => exact (Nat.zero_add _).symm
  | cons p l ih => rw [List.cons_append, frameValue, frameValue, ih, Nat.add_assoc]

/-- Seconds that carry bits `m - 1` down to 0 of a number read as those bits, in its unit. -/
theorem frameValue_digitWeights {frame : Nat → Symbol} {rows : List (BitVec 6 × Nat)} {m d : Nat} (unit : Nat)
    (hbits : rows.map Prod.snd = (List.range m).reverse)
    (hrows : ∀ p ∈ rows, (frame p.1.toNat == .one) = d.testBit p.2) :
    frameValue frame (digitWeights unit rows) = unit * (d % 2 ^ m) := by
  induction m generalizing rows with
  | zero =>
    obtain rfl := List.map_eq_nil_iff.1 hbits
    rw [Nat.pow_zero, Nat.mod_one]; rfl
  | succ m ih =>
    rw [List.range_succ, List.reverse_append, List.reverse_singleton, List.singleton_append] at hbits
    obtain ⟨p, rest, rfl, rfl, hrest⟩ := List.map_eq_cons_iff.1 hbits
    have hp : frame p.1.toNat = .one ↔ d.testBit p.2 = true := by
      rw [← hrows p List.mem_cons_self, beq_iff_eq]
    have hhead : (if frame p.1.toNat = .one then unit * 2 ^ p.2 else 0) = unit * (2 ^ p.2 * (d.testBit p.2).toNat) := by
      rw [if_congr hp rfl rfl]
      cases d.testBit p.2 <;> simp
    calc frameValue frame (digitWeights unit (p :: rest))
        = (if frame p.1.toNat = .one then unit * 2 ^ p.2 else 0) + frameValue frame (digitWeights unit rest) := rfl
      _ = unit * (d % 2 ^ (p.2 + 1)) := by
        rw [hhead, ih hrest fun q hq => hrows q (List.mem_cons_of_mem p hq), Nat.toNat_testBit, Nat.mod_pow_succ]; ring

/-- The bits of a number from bit `base` on are those of the digit there. -/
theorem testBit_of_digit {x base digit : Nat} (h : x / 2 ^ base % 16 = digit) {i : Nat} (hi : i < 4) :
    x.testBit (base + i) = digit.testBit i := by
  rw [← h, show 16 = 2 ^ 4 from rfl, Nat.testBit_mod_two_pow, Nat.testBit_div_two_pow, decide_eq_true hi, Bool.true_and,
    Nat.add_comm]

/-- The seconds of a digit read as the digit, in its unit. -/
theorem frameValue_digit {t : Sample} {src : Source} {base m digit : Nat} {rows : List (BitVec 6 × Nat)} (unit : Nat)
    (hcarry : CarryBits src base rows) (hbase : base ≤ 8) (hbits : rows.map Prod.snd = (List.range m).reverse)
    (hdigit : (sourceValue t src).toNat / 2 ^ base % 16 = digit) (hlt : digit < 2 ^ m) :
    frameValue (frameOf t) (digitWeights unit rows) = unit * digit := by
  rw [frameValue_digitWeights unit hbits fun p hp => ?_, Nat.mod_eq_of_lt hlt]
  obtain ⟨-, hbit, hrow⟩ := hcarry p hp
  rw [frameOf_bit (by omega) hrow, testBit_of_digit hdigit hbit]

/-! ### The digits of the day, the year and the weekday at their seconds -/

theorem carryBits_day_hundreds : CarryBits .day 8 [(22#6, 1), (23#6, 0)] := by unfold CarryBits; decide

theorem carryBits_day_tens : CarryBits .day 4 [(25#6, 3), (26#6, 2), (27#6, 1), (28#6, 0)] := by unfold CarryBits; decide

theorem carryBits_day_units : CarryBits .day 0 [(30#6, 3), (31#6, 2), (32#6, 1), (33#6, 0)] := by unfold CarryBits; decide

theorem carryBits_year_tens : CarryBits .year 4 [(41#6, 3), (42#6, 2), (43#6, 1), (44#6, 0)] := by unfold CarryBits; decide

theorem carryBits_year_units : CarryBits .year 0 [(45#6, 3), (46#6, 2), (47#6, 1), (48#6, 0)] := by unfold CarryBits; decide

theorem carryBits_weekday : CarryBits .weekday 0 [(50#6, 2), (51#6, 1), (52#6, 0)] := by unfold CarryBits; decide

/-! ### The fields -/

section
variable {t : Sample}

/-- Two groups of seconds that carry the digits of a value below 100 read as the value. -/
theorem frameValue_tens_units {src : Source} {n m : Nat} {tens units : List (BitVec 6 × Nat)}
    (hv : sourceValue t src = toBcd n) (hn : n < 100) (htens : CarryBits src 4 tens) (hunits : CarryBits src 0 units)
    (hbits : tens.map Prod.snd = (List.range m).reverse) (hbits' : units.map Prod.snd = (List.range 4).reverse)
    (hlt : n / 10 < 2 ^ m) :
    frameValue (frameOf t) (digitWeights 10 tens ++ digitWeights 1 units) = n := by
  obtain ⟨-, ht, hu⟩ := toBcd_digits (n := n) (by omega)
  rw [← hv] at ht hu
  have hu' : (sourceValue t src).toNat / 2 ^ 0 % 16 = n % 10 := by rwa [Nat.pow_zero, Nat.div_one]
  rw [frameValue_append, frameValue_digit 10 htens (by decide) hbits ht (by omega),
    frameValue_digit 1 hunits (by decide) hbits' hu' (by omega)]
  omega

theorem frameValue_minute (h : t.min < 60) : frameValue (frameOf t) minuteWeights = t.min := by
  have hsplit : minuteWeights = digitWeights 10 [(1#6, 2), (2#6, 1), (3#6, 0)] ++
      digitWeights 1 [(5#6, 3), (6#6, 2), (7#6, 1), (8#6, 0)] := by decide
  rw [hsplit]
  exact frameValue_tens_units (src := .minute) (m := 3) rfl (by omega) carryBits_minute_tens carryBits_minute_units rfl rfl
    (by omega)

theorem frameValue_hour (h : t.hour < 24) : frameValue (frameOf t) hourWeights = t.hour := by
  have hsplit : hourWeights = digitWeights 10 [(12#6, 1), (13#6, 0)] ++
      digitWeights 1 [(15#6, 3), (16#6, 2), (17#6, 1), (18#6, 0)] := by decide
  rw [hsplit]
  exact frameValue_tens_units (src := .hour) (m := 2) rfl (by omega) carryBits_hour_tens carryBits_hour_units rfl rfl
    (by omega)

theorem frameValue_year (h : t.year2 < 100) : frameValue (frameOf t) yearWeights = t.year2 := by
  have hsplit : yearWeights = digitWeights 10 [(41#6, 3), (42#6, 2), (43#6, 1), (44#6, 0)] ++
      digitWeights 1 [(45#6, 3), (46#6, 2), (47#6, 1), (48#6, 0)] := by decide
  rw [hsplit]
  exact frameValue_tens_units (src := .year) (m := 4) rfl h carryBits_year_tens carryBits_year_units rfl rfl
    (by omega)

theorem frameValue_day (h : t.doy ≤ 366) : frameValue (frameOf t) dayWeights = t.doy := by
  obtain ⟨hh, ht, hu⟩ := toBcd_digits (n := t.doy) (by omega)
  have hhundreds : (sourceValue t .day).toNat / 2 ^ 8 % 16 = t.doy / 100 := by
    change (toBcd t.doy).toNat / 256 % 16 = t.doy / 100
    rw [hh]; omega
  have hunits : (sourceValue t .day).toNat / 2 ^ 0 % 16 = t.doy % 10 := by rwa [Nat.pow_zero, Nat.div_one]
  have hsplit : dayWeights = digitWeights 100 [(22#6, 1), (23#6, 0)] ++
      digitWeights 10 [(25#6, 3), (26#6, 2), (27#6, 1), (28#6, 0)] ++
      digitWeights 1 [(30#6, 3), (31#6, 2), (32#6, 1), (33#6, 0)] := by decide
  rw [hsplit, frameValue_append, frameValue_append,
    frameValue_digit (m := 2) 100 carryBits_day_hundreds (by decide) rfl hhundreds (by omega),
    frameValue_digit (m := 4) 10 carryBits_day_tens (by decide) rfl ht (by omega),
    frameValue_digit (m := 4) 1 carryBits_day_units (by decide) rfl hunits (by omega)]
  omega

/-- The weekday is sent as a plain number (41_frame_encoder.md R120). -/
theorem frameValue_weekday (h : t.wday < 7) : frameValue (frameOf t) weekdayWeights = t.wday := by
  have hdigit : (sourceValue t .weekday).toNat / 2 ^ 0 % 16 = t.wday := by
    rw [sourceValue, BitVec.toNat_ofNat]; omega
  have hrows : weekdayWeights = digitWeights 1 [(50#6, 2), (51#6, 1), (52#6, 0)] := by decide
  rw [hrows, frameValue_digit (m := 3) 1 carryBits_weekday (by decide) rfl hdigit (by omega), Nat.one_mul]

end

/-- Settles O21: SYMFOR answers the frame's symbols, and each field's seconds read as its digits. -/
theorem frameRoundTrip : Obligations.FrameRoundTrip := by
  intro s min hour doy year2 wday hs hd
  have ⟨hmin, hhour, ⟨_, hdoy⟩, hyear, hwday⟩ := hd
  exact ⟨frameOf (minuteStart min hour doy year2 wday), fun sec hsec => exec_symfor hs hsec hd, frameValue_minute hmin,
    frameValue_hour hhour, frameValue_day hdoy, frameValue_year hyear, frameValue_weekday hwday⟩

end Sys2Proof.Machine

/-! PROOFS. The modulator: SYMWR and SYMUPD (O22, O35), starting and stopping (O23, O25, O26), the ticks (O28, O29, O34),
and a tick beside a stop (O33). -/

namespace Sys2Proof.Machine

/-- Settles O22: each code is a symbol's own, and 3 is the first illegal value. -/
theorem symwrWritesTheCell : Obligations.SymwrWritesTheCell := fun _ hp =>
  ⟨exec_symwr_code hp .zero, exec_symwr_code hp .one, exec_symwr_code hp .marker,
    exec_reports (pre := []) hp rfl nofun (.inr (by decide))⟩

/-- Settles O35: the symbol SYMFOR gives has a code, which SYMWR takes. -/
theorem symupdLatchesFrameSymbol : Obligations.SymupdLatchesFrameSymbol := by
  intro s sec min hour doy year2 wday hs hsec hd
  have ⟨hp, _⟩ := hs
  have hfor := exec_symfor hs hsec hd
  exact ⟨_, hfor, rfl, (execAll_cons _ _ hfor).trans (execAll_cons _ [] (exec_symwr_code hp _)), rfl⟩

/-! ### Starting and stopping -/

/-- Settles O23: the attach succeeds, so the modulator starts. -/
theorem modstartStarts : Obligations.ModstartStarts := by
  intro s hp hr ha
  rw [exec_modstart hp, startModulator_starts hr ha]; rfl

/-- Settles O25, by whether the modulator runs. -/
theorem modstopStops : Obligations.ModstopStops := by
  intro s hp
  refine ⟨fun hr => ?_, fun hr => ?_⟩
  · rw [exec_modstop hp, stopModulator_running hr]; rfl
  · rw [exec_modstop hp, stopModulator_stopped hr]; rfl

/-- Settles O26: after a stop the modulator is stopped, and there is nothing left to stop. -/
theorem startAndStopAreIdempotent : Obligations.StartAndStopAreIdempotent := by
  refine ⟨fun s t h => ?_, fun s hp hr => ?_⟩
  · obtain ⟨hp, -, hb⟩ := controlOp_next (i := .modstop) h
    obtain rfl := Host.Outcome.next.inj hb
    have hstopped : (s.stopModulator.withResult none).stopModulator = s.stopModulator.withResult none :=
      stopModulator_stopped (stopModulator_run s)
    have hp' : (s.stopModulator.withResult none).pwr = .awake := (stopModulator_pwr s).trans hp
    rw [exec_modstop hp', hstopped]; rfl
  · rw [exec_modstart hp, startModulator_running hr]; rfl

/-! ### Ticks -/

/-- Settles O28: a stopped modulator has no tick enabled. -/
theorem disabledTickIsNoStep : Obligations.DisabledTickIsNoStep := fun _ hr =>
  exec_tick_disabled fun he => Bool.false_ne_true (hr.symm.trans he.1)

/-- Settles O29: tick number `n + 1` from the start of a second is that of subslot `n mod 10`. -/
theorem nthTickAfterStart : Obligations.NthTickAfterStart := by
  intro s x n hr hp hx hsub hn
  obtain ⟨m, rfl⟩ := Nat.exists_eq_add_of_le' hn
  exact ticks_succ hr hp hx (.inl hsub) m

/-- Settles O34: what a tick shows and stores is a function of the symbol and the stored counter. -/
theorem tickDependsOnModulatorOnly : Obligations.TickDependsOnModulatorOnly := by
  intro s s' t hsym hsub hrun hpwr hr hp h
  rcases execTick_next h with ⟨he, -⟩ | ⟨-, x, hx, rfl⟩
  · exact absurd ((tickEnabled_iff s).2 ⟨hr, hp⟩) (by simp [he])
  · refine ⟨_, exec_tick_written (hrun ▸ hr) (hpwr ▸ hp) (hsym ▸ hx), ?_⟩
    rw [tickWith_withResult, tickWith_withResult, ← hsub]
    exact ⟨rfl, rfl, rfl⟩

/-- Settles O33: the stop forces the outputs to the idle level after the tick, and disables the tick that comes after it. -/
theorem tickAndStopCommute : Obligations.TickAndStopCommute := by
  intro s x hr hp hx
  have htick := exec_tick_written hr hp hx
  have hstop := exec_modstop hp
  have hdisabled : exec .tick (s.stopModulator.withResult none) = .next (s.stopModulator.withResult none) :=
    disabledTickIsNoStep _ (stopModulator_run s)
  refine ⟨_, _, (execAll_cons _ _ htick).trans (execAll_cons _ [] (exec_modstop hp)),
    (execAll_cons _ _ hstop).trans (execAll_cons _ [] hdisabled), ?_⟩
  rw [stopModulator_running hr, stopModulator_running (s := (s.tickWith x).withResult none) hr]; rfl

end Sys2Proof.Machine

/-! PROOFS. The scheduler's window (O37, O38), the restart of a failed attach (O24) and the two sleeps (O44 to O47). -/

namespace Sys2Proof.Machine

/-! ### The window -/

/-- The night window as a condition on the hour (43_deadline_scheduler.md R182). -/
theorem inNight_iff {c : ScheduleConfig} {h : Nat} : inNight c h = true ↔
    if c.nightStartH.val ≤ c.nightEndH.val then c.nightStartH.val ≤ h ∧ h < c.nightEndH.val
    else c.nightStartH.val ≤ h ∨ h < c.nightEndH.val := by
  unfold inNight
  split <;> simp

/-- The night window around the clock: now lies fewer hours after its start than its end does. -/
theorem inNight_iff_hours {c : ScheduleConfig} {h : Nat} (hh : h < 24) : inNight c h = true ↔
    (h + 24 - c.nightStartH.val) % 24 < (c.nightEndH.val + 24 - c.nightStartH.val) % 24 := by
  have := c.nightStartH.isLt; have := c.nightEndH.isLt
  rw [inNight_iff]
  split <;> omega

/-- Settles O37: the ordered tests are the classifier's. -/
theorem classifyResult : Obligations.ClassifyResult := by
  intro s hour min sec hs hl
  rw [exec_classify hs hl, State.windowAt, classify]
  simp only [inNight_iff, State.withResult]

/-- Settles O38: past the boot test and the hold the window is a night window exactly in the night. -/
theorem nightWindowAroundTheClock : Obligations.NightWindowAroundTheClock := by
  intro s hour min sec hs hl hboot hhold
  have ⟨hh, _⟩ := hl
  have hwindow : s.windowAt hour.toNat min.toNat =
      if inNight s.cfg hour.toNat then if min.toNat < s.cfg.nightTxMin.val then .nightTransmit else .nightIdle
      else .daytimeSuspend := by
    rw [State.windowAt, classify, if_neg hboot, if_neg hhold]
  refine ⟨_, exec_classify hs hl, ?_⟩
  rw [← inNight_iff_hours hh, hwindow]
  split_ifs with hnight hmin
  · simp [hnight, hmin]
  · simp [hnight, Nat.not_lt.1 hmin]
  · simp [hnight]

/-! ### A failed attach -/

/-- Starting a stopped modulator whose PWM does not attach is a reset (60_exceptions.md R240). -/
theorem startModulator_isResetOf {s : State} (hr : s.run = false) (ha : s.ports.pwmAttachOk = false) :
    IsResetOf s s.startModulator false ∧ s.startModulator.result = none ∧ s.startModulator.resetCause = .restart := by
  rw [startModulator_restarts hr ha]
  exact ⟨(resetBy_isResetOf s.aligned .restart).of_cfg_eq rfl, rfl, rfl⟩

/-- A transmitting SCHED whose attach fails does what MODSTART does (60_exceptions.md R240, R258). -/
theorem schedTransmit_of_attachFails {s : State} (hr : s.run = false) (ha : s.ports.pwmAttachOk = false) (w : Window) :
    s.schedTransmit w = s.startModulator := by
  simp [State.schedTransmit, State.attachFails, hr, ha]

/-- Settles O24: MODSTART and a transmitting SCHED both start the modulator, which resets the device. -/
theorem attachFailureRestarts : Obligations.AttachFailureRestarts := by
  refine ⟨fun s hp hr ha => ?_, fun s hour min sec w hs hr ha hl hc hw => ?_⟩
  · obtain ⟨hreset, -, hcause⟩ := startModulator_isResetOf hr ha
    exact ⟨_, exec_modstart hp, hreset.withResult none, rfl, hcause⟩
  · obtain rfl : s.windowAt hour.toNat min.toNat = w := by
      simpa using congrArg State.result (exec_classify_next hc).symm
    have hsched := exec_sched hs hl
    rw [schedAct_transmit hw, schedTransmit_of_attachFails hr ha] at hsched
    exact ⟨_, hsched, startModulator_isResetOf hr ha⟩

/-! ### Sleep -/

/-- Settles O44, by whether the duration is 0. -/
theorem sleepcpHalts : Obligations.SleepcpHalts := by
  intro s secs hp hr hn
  refine ⟨fun hz => ?_, fun hpos => ?_⟩
  · obtain rfl : secs = 0#17 := BitVec.eq_of_toNat_eq hz
    exact exec_sleepcp hp hr hn
  · rw [exec_sleepcp hp hr hn, sleepCp_pos hpos]; rfl

/-- Settles O46: a legal duration arms the timer. -/
theorem sleepdeepHalts : Obligations.SleepdeepHalts := fun _ _ hp hr hn hn' => exec_sleepdeep hp hr ⟨hn, hn'⟩

/-- Settles O45: the sleep writes PWR and the timer only, and the wake puts both back. -/
theorem sleepcpKeepsState : Obligations.SleepcpKeepsState := by
  intro s t secs n p src rest hpos h hn
  obtain ⟨hp, -, -, hb⟩ := sleepOp_next h
  obtain rfl := Host.Outcome.next.inj hb
  rw [sleepCp_pos hpos]
  rw [step_of_nextInput (s := (s.enterSleep .sleepCp secs).withResult none) hn, handle, wakeBy_sleepCp rfl]
  simp [State.leaveSleepCp, State.sample, State.withResult, State.enterSleep, hp]

/-- Settles O47, event by event: a wake of either source or a reset; no command runs and no tick is enabled asleep. -/
theorem sleepdeepEndsInReset : Obligations.SleepdeepEndsInReset := by
  intro s inp rest hp hn
  have hstep := step_of_nextInput hn
  have hp' : (s.sample inp rest).pwr = .sleepDeep := hp
  have hasleep : (s.sample inp rest).pwr ≠ .awake := by simp [hp]
  have hexternal : handle (.wake .external) (s.sample inp rest) = .next (s.sample inp rest) := by
    rw [handle, wakeBy_sleepDeep_external hp']
  refine ⟨fun he => ?_, fun he => ?_, fun he => ?_, fun t ht ha => ?_⟩
  · rw [he, handle, wakeBy_sleepDeep_timer hp'] at hstep
    exact ⟨_, hstep, (resetBy_isResetOf _ .deepWake).of_cfg_eq rfl, rfl⟩
  · rw [he, hexternal] at hstep
    exact ⟨_, hstep, hp, rfl⟩
  · obtain ⟨t, ht, hreset, -⟩ := resetFromAnyState.1 s inp rest hn he
    exact ⟨t, ht, hreset⟩
  · have hstays (h : handle inp.event (s.sample inp rest) = .next (s.sample inp rest)) : False :=
      hasleep (Host.Outcome.next.inj (h.symm.trans (hstep.symm.trans ht)) ▸ ha)
    cases he : inp.event with
    | command w =>
      rw [ht, he] at hstep
      exact absurd (issue_next hstep.symm).1 hasleep
    | tick => exact (hstays (he ▸ exec_tick_disabled fun hen => hasleep hen.2)).elim
    | wake src =>
      cases src with
      | timer => simp
      | external => exact (hstays (he ▸ hexternal)).elim
    | powerOn | manualReset => simp

end Sys2Proof.Machine

/-! PROOFS. What only a reset changes: the symbol (O36), WAKE (O56) and the uptime (O57). Who raises the carrier (O54),
and the restart loop (O58). -/

namespace Sys2Proof.Machine

section
variable {i : Instr} {s t : State} {inp : Input} {rest : List Input}

/-! ### What only a reset changes -/

/-- `t` is the state after a reset of `s`, and `WAKE` is latched from its cause (10_state.md R26, R39). -/
def ResetLatched (s t : State) : Prop := IsResetOf s t t.wake ∧ t.wake = wakeCause t.resetCause

theorem resetLatched_resetBy (s : State) (c : ResetCause) : ResetLatched s (s.resetBy c) := ⟨resetBy_isResetOf s c, rfl⟩

/-- Of the state before it, a reset leaves the configuration only. -/
theorem ResetLatched.of_cfg_eq {u : State} (h : ResetLatched u t) (hc : u.cfg = s.cfg) : ResetLatched s t :=
  ⟨h.1.of_cfg_eq hc, h.2⟩

theorem Restarts.resetLatched (h : Restarts s t) : ResetLatched s t := by
  obtain ⟨-, -, hreset, hcause⟩ := h
  have hwake := hreset.wakeFlag
  exact ⟨hwake.symm ▸ hreset, by rw [hwake, hcause]; rfl⟩

/-- A SYMWR that completes wrote the symbol of its code (42_carrier_modulator.md R150). -/
theorem exec_symwr_next {c : BitVec 2} (h : exec (.symwr c) s = .next t) : ∃ y : Symbol, c = y.code ∧ t.sym = some y := by
  obtain ⟨hp, hi, -⟩ := controlOp_next h
  obtain ⟨y, rfl⟩ := exists_symbol_of_wf ((firstIllegal_none_iff_wf _).1 hi)
  obtain rfl := Host.Outcome.next.inj ((exec_symwr_code hp y).symm.trans h)
  exact ⟨y, rfl, rfl⟩

/-- An operation that does not restart the device leaves `WAKE` and `U` alone, and the symbol too unless it is SYMWR. -/
theorem exec_resets_or_keeps (h : exec i s = .next t) : ResetLatched s t ∨
    (t.wake = s.wake ∧ t.uptime = s.uptime ∧ (t.sym = s.sym ∨ ∃ y, i = .symwr (Symbol.code y) ∧ t.sym = some y)) := by
  rcases exec_restarts_or_writeFrame h with ⟨-, hreset⟩ | hf
  · exact .inl hreset.resetLatched
  · obtain ⟨-, -, hwake, -, huptime, -⟩ := unowned_eq_iff.1 hf.unowned
    refine .inr ⟨hwake, huptime, or_iff_not_imp_left.2 fun hsym => ?_⟩
    have hop := hf.sym hsym
    cases i with
    | symwr c =>
      obtain ⟨y, rfl, hy⟩ := exec_symwr_next h
      exact ⟨y, rfl, hy⟩
    | _ => cases hop

/-- A wake event ends a clock-preserving sleep, ends a deep suspension in a reset, or does nothing. -/
theorem wakeBy_cases (s : State) (src : WakeSource) :
    s.wakeBy src = s ∨ s.wakeBy src = s.leaveSleepCp ∨ s.wakeBy src = s.resetBy .deepWake := by
  unfold State.wakeBy
  split
  · exact .inl rfl
  · exact .inr (.inl rfl)
  · exact .inr (.inr rfl)
  · exact .inl rfl

/-- A step that takes an event is a reset, or it leaves `WAKE` alone, advances `U` by the seconds that have passed, and leaves
the symbol alone unless it runs a SYMWR. -/
theorem step_resets_or_keeps (hn : s.nextInput = some (inp, rest)) (h : step s = .next t) : ResetLatched s t ∨
    (t.wake = s.wake ∧ t.uptime = advanceUptime s.uptime inp.elapsed ∧
      (t.sym = s.sym ∨ ∃ y, inp.event = .command (encode (.symwr (Symbol.code y))) ∧ t.sym = some y)) := by
  rcases step_next_cases h with ⟨hnone, -⟩ | ⟨inp', rest', hn', hevent⟩
  · cases hnone.symm.trans hn
  · obtain ⟨rfl, rfl⟩ := Prod.mk.inj (Option.some.inj (hn.symm.trans hn'))
    rcases hevent with ⟨w, i, hw, hd, -, he⟩ | ⟨-, he⟩ | ⟨src, -, rfl⟩ | ⟨c, -, rfl⟩
    · refine (exec_resets_or_keeps he).imp (·.of_cfg_eq rfl) fun ⟨hwake, huptime, hsym⟩ => ⟨hwake, huptime, ?_⟩
      refine hsym.imp_right fun ⟨y, hi, hy⟩ => ⟨y, ?_, hy⟩
      rw [hw, ← hi, encodeOfDecode w i hd]
    · refine (exec_resets_or_keeps he).imp (·.of_cfg_eq rfl) fun ⟨hwake, huptime, hsym⟩ => ⟨hwake, huptime, .inl ?_⟩
      exact hsym.resolve_right fun ⟨_, hi, _⟩ => nomatch hi
    · rcases wakeBy_cases (s.sample inp rest) src with hwake | hwake | hwake
      · rw [hwake]; exact .inr ⟨rfl, rfl, .inl rfl⟩
      · rw [hwake]; exact .inr ⟨rfl, rfl, .inl rfl⟩
      · rw [hwake]; exact .inl ((resetLatched_resetBy _ .deepWake).of_cfg_eq rfl)
    · exact .inl ((resetLatched_resetBy _ c).of_cfg_eq rfl)

end

/-- A step without an event changes nothing. -/
theorem eq_of_step_of_nextInput_none {s t : State} (hn : s.nextInput = none) (h : step s = .next t) : t = s :=
  (Host.Outcome.next.inj ((step_of_nextInput_none hn).symm.trans h)).symm

/-- Settles O36: of the steps that are no reset only a SYMWR writes the symbol. -/
theorem symbolSurvivesUntilReset : Obligations.SymbolSurvivesUntilReset := by
  intro s t x hx h
  cases hn : s.nextInput with
  | none => exact .inl (eq_of_step_of_nextInput_none hn h ▸ hx)
  | some entry =>
    obtain ⟨⟨n, p, e⟩, rest⟩ := entry
    rcases step_resets_or_keeps hn h with ⟨hreset, -⟩ | ⟨-, -, hsym | ⟨y, rfl, hy⟩⟩
    · exact .inr (.inr hreset)
    · exact .inl (hsym.trans hx)
    · exact .inr (.inl ⟨n, p, rest, y, rfl, hy⟩)

/-- Settles O56: of the steps that are no reset none writes WAKE. -/
theorem wakeFlagLatchedUntilReset : Obligations.WakeFlagLatchedUntilReset := by
  intro s t h hne
  cases hn : s.nextInput with
  | none => exact absurd (congrArg State.wake (eq_of_step_of_nextInput_none hn h)) hne
  | some entry => exact (step_resets_or_keeps hn h).resolve_right fun hkeeps => hne hkeeps.1

/-- Settles O57: a step that is no reset advances the uptime by the seconds of its entry. -/
theorem uptimeGrowsUntilReset : Obligations.UptimeGrowsUntilReset := by
  refine ⟨fun s t inp rest hn h => ?_, fun u v huv => ⟨_, advanceUptime_sub huv⟩⟩
  rcases step_resets_or_keeps hn h with ⟨hreset, -⟩ | ⟨-, huptime, -⟩
  · exact .inr hreset
  · rw [huptime]
    exact .inl ⟨advanceUptime_toNat _ _, le_advanceUptime _ _⟩

/-! ### Who raises the carrier -/

section
variable {i : Instr} {s t : State}

theorem startModulator_keeps_off (hoff : s.carrier = .off) : s.startModulator.carrier = .off := by
  rcases startModulator_cases s with ⟨-, h⟩ | ⟨-, -, h⟩ | ⟨-, -, h⟩
  · rw [h, hoff]
  · rw [h]; exact hoff
  · rw [h]; rfl

theorem stopModulator_keeps_off (hoff : s.carrier = .off) : s.stopModulator.carrier = .off := by
  cases hr : s.run with
  | false => rw [stopModulator_stopped hr, hoff]
  | true => rw [stopModulator_running hr]; rfl

@[simp] theorem sleepCp_carrier (s : State) (n : BitVec 17) : (s.sleepCp n).carrier = s.carrier := by
  unfold State.sleepCp
  split <;> rfl

theorem schedAct_keeps_off (hoff : s.carrier = .off) (w : Window) (h m sec : Nat) :
    (s.schedAct w h m sec).carrier = .off := by
  have transmit : (s.schedTransmit w).carrier = .off := by
    obtain ⟨r, hr⟩ := schedTransmit_eq_startModulator s w
    rw [hr]; exact startModulator_keeps_off hoff
  have sleep (n : BitVec 17) : (s.schedSleepCp w n).carrier = .off :=
    (sleepCp_carrier _ n).trans (stopModulator_keeps_off hoff)
  cases w with
  | bootTest => exact transmit
  | nightTransmit => exact transmit
  | preMidnightHold => exact sleep _
  | nightIdle => exact sleep _
  | daytimeSuspend => exact stopModulator_keeps_off hoff

/-- No operation but an enabled tick raises the carrier (42_carrier_modulator.md R160). -/
theorem exec_keeps_off (h : exec i s = .next t) (hoff : s.carrier = .off)
    (hi : ¬(i = .tick ∧ s.run = true ∧ s.pwr = .awake)) : t.carrier = .off := by
  rcases exec_next_cases h with ⟨-, -, rfl⟩ | ⟨-, -, r, rfl⟩ | ⟨x, -, -, rfl⟩ | ⟨-, -, rfl⟩ | ⟨-, -, rfl⟩ |
    ⟨htick, hen, -⟩ | ⟨hour, min, sec, -, -, -, -, rfl⟩ | ⟨n, -, -, -, -, rfl⟩ | ⟨n, -, -, -, -, rfl⟩
  · exact hoff
  · exact hoff
  · exact hoff
  · exact startModulator_keeps_off hoff
  · exact stopModulator_keeps_off hoff
  · exact absurd ⟨htick, (tickEnabled_iff s).1 hen⟩ hi
  · exact schedAct_keeps_off hoff _ _ _ _
  · exact (sleepCp_carrier s n).trans hoff
  · exact hoff

theorem exec_raises (h : exec i s = .next t) (hoff : s.carrier = .off) (hon : t.carrier = .on) :
    i = .tick ∧ s.run = true ∧ s.pwr = .awake :=
  by_contra fun hi => absurd ((exec_keeps_off h hoff hi).symm.trans hon) (by decide)

theorem wakeBy_keeps_off (hoff : s.carrier = .off) (src : WakeSource) : (s.wakeBy src).carrier = .off := by
  rcases wakeBy_cases s src with h | h | h <;> rw [h]
  · exact hoff
  · exact hoff
  · rfl

end

/-- Settles O54: a step that raises the carrier runs an operation, which is TICK, and no command is. -/
theorem onlyTickRaisesCarrier : Obligations.OnlyTickRaisesCarrier := by
  refine ⟨fun i s t => exec_raises, fun s t h hoff hon => ?_⟩
  have hne (hoff' : t.carrier = .off) : False := absurd (hoff'.symm.trans hon) (by decide)
  rcases step_next_cases h with ⟨-, rfl⟩ | ⟨inp, rest, hn, hevent⟩
  · exact (hne hoff).elim
  · rcases hevent with ⟨w, i, -, -, hi, he⟩ | ⟨htick, he⟩ | ⟨src, -, rfl⟩ | ⟨c, -, rfl⟩
    · exact absurd (exec_raises he hoff hon).1 hi
    · obtain ⟨-, hr, hp⟩ := exec_raises he hoff hon
      exact ⟨hr, hp, inp, rest, hn, htick⟩
    · exact (hne (wakeBy_keeps_off (s := s.sample inp rest) hoff src)).elim
    · exact (hne rfl).elim

/-! ### The restart loop -/

/-- The states the restart loop comes through: what a reset leaves, with one entry to come for ever (60_exceptions.md R241). -/
structure InRestartLoop (c : ScheduleConfig) (inp : Input) (s : State) : Prop where
  reset : IsResetOf { State.reset with cfg := c } s false
  schedule : s.schedule = []
  cycle : s.cycle = [inp]

/-- The entry in which the control loop issues SCHED. -/
def schedEntry (hour : BitVec 5) (min sec : BitVec 6) (n : Nat) (p : Ports) : Input :=
  ⟨n, p, .command (encode (.sched hour min sec))⟩

section
variable {c : ScheduleConfig} {hour : BitVec 5} {min sec : BitVec 6} {n : Nat} {p : Ports} {s : State}

/-- SCHED in the boot test, the PWM not attaching, does what MODSTART does (60_exceptions.md R240). -/
theorem exec_sched_bootTest (hs : s.ReadyTimed) (hl : LegalTime hour min sec) (hr : s.run = false)
    (ha : s.ports.pwmAttachOk = false) (hw : s.wake = false) (hu : s.uptime.toNat < s.cfg.bootTestMin.toNat * 60) :
    exec (.sched hour min sec) s = .next s.startModulator := by
  rw [exec_sched hs hl, windowAt_eq_bootTest hw hu, schedAct_transmit (.inl rfl), schedTransmit_of_attachFails hr ha]

/-- From a restarted device the next SCHED restarts it again, and the loop goes on. -/
theorem restartLoop_step (hl : LegalTime hour min sec) (hn : n < c.bootTestMin.toNat * 60) (ht : p.timeTrusted = true)
    (ha : p.pwmAttachOk = false) (h : InRestartLoop c (schedEntry hour min sec n p) s) :
    ∃ t, step s = .next t ∧ t.resetCause = .restart ∧ InRestartLoop c (schedEntry hour min sec n p) t := by
  obtain ⟨hreset, hsched, hcycle⟩ := h
  have hboot : (advanceUptime s.uptime n).toNat < s.cfg.bootTestMin.toNat * 60 := by
    rw [hreset.cfg, hreset.uptime, advanceUptime_toNat]
    simp only [BitVec.toNat_ofNat]; omega
  have hstep : step s = .next (s.sample (schedEntry hour min sec n p) []).startModulator :=
    (step_of_command (nextInput_of_cycle hsched hcycle) hreset.pwr (decodeOfEncode _) nofun).trans
      (exec_sched_bootTest ⟨hreset.pwr, ht⟩ hl hreset.run ha hreset.wakeFlag hboot)
  have hrestart : (s.sample (schedEntry hour min sec n p) []).startModulator = _ := startModulator_restarts hreset.run ha
  rw [hrestart] at hstep
  exact ⟨_, hstep, rfl, (resetBy_isResetOf _ .restart).of_cfg_eq hreset.cfg, rfl, hcycle⟩

end

/-- Settles O58: every step leads from a state of the loop to one. -/
theorem restartLoopIsARun : Obligations.RestartLoopIsARun := by
  intro c hour min sec n p hl hboot ht ha k
  have hloop : ∀ k s, InRestartLoop c (schedEntry hour min sec n p) s →
      ∃ t, core.run (k + 1) s = .next t ∧ IsResetOf { State.reset with cfg := c } t false ∧ t.resetCause = .restart := by
    intro k
    induction k with
    | zero =>
      intro s hs
      obtain ⟨t, hstep, hcause, ht⟩ := restartLoop_step hl hboot ht ha hs
      exact ⟨t, run_succ hstep, ht.reset, hcause⟩
    | succ k ih =>
      intro s hs
      obtain ⟨t, hstep, -, ht⟩ := restartLoop_step hl hboot ht ha hs
      obtain ⟨u, hrun, hu⟩ := ih t ht
      exact ⟨u, (run_succ hstep).trans hrun, hu⟩
  have hstart : IsResetOf { State.reset with cfg := c } { State.reset with cfg := c } false :=
    { reset_isResetOf_reset with cfg := rfl }
  exact hloop k _ ⟨{ hstart with }, rfl, rfl⟩

end Sys2Proof.Machine
